-- ==== Sys2Proof/Word.lean ====
section
/-! DEFINITION. The two fixed word types of the engine: a 32-bit word (a command of spec/30_encoding.md R70, a value of
the GPIO control register of spec/10_state.md R21) and a byte. Every value is unsigned (spec/00_scope.md R10). -/

namespace Sys2Proof

/-- A 32-bit word: a VTCORE-CMD command (R70) or a port word (R61). -/
abbrev Word := BitVec 32

/-- An 8-bit value: `b`, `addr` of `I2C_WRITE`, `val`, `DEV_SEL` (R72, R66). -/
abbrev Byte := BitVec 8

end Sys2Proof
end

