-- ==== Sys2Proof/Syntax.lean ====
section
/-! DEFINITION. The fifteen commands of VTCORE-CMD (spec/30_encoding.md R71), one constructor for each row of
spec/opcode_table.json. An operand has the width its encoding gives it (R72); a 1-bit operand that is a line value is a
`Bool` (R10: 1 means asserted or high), one that names an alternative is the alternative (R75). -/

namespace Sys2Proof

/-- The two EEPROM families (R14, R24). -/
inductive Family where
  /-- The two-wire family (`fam = 0`). -/
  | i2c
  /-- The four-wire family (`fam = 1`). -/
  | fourwire
  deriving DecidableEq, Repr, Inhabited

/-- The pause an `SPI_DESELECT` asks for (R75, R143). -/
inductive Pause where
  /-- `SHORT` (`long = 0`). -/
  | short
  /-- `LONG` (`long = 1`). -/
  | long
  deriving DecidableEq, Repr, Inhabited

/-- A command of the engine (R71). -/
inductive Instr where
  /-- `SET_LINES cs, clk, do` (R100). -/
  | setLines (cs clk dataOut : Bool)
  /-- `I2C_INIT` (R111). -/
  | i2cInit
  /-- `I2C_START` (R112). -/
  | i2cStart
  /-- `I2C_SEND_BIT v` (R113). -/
  | i2cSendBit (v : Bool)
  /-- `I2C_SEND_BYTE b` (R114). -/
  | i2cSendByte (b : Byte)
  /-- `I2C_STOP` (R115). -/
  | i2cStop
  /-- `I2C_WRITE addr, val` (R116). -/
  | i2cWrite (addr val : Byte)
  /-- `SPI_SELECT` (R142). -/
  | spiSelect
  /-- `SPI_SEND_FIELD width, value` (R141). -/
  | spiSendField (width : BitVec 5) (value : BitVec 16)
  /-- `SPI_DESELECT SHORT|LONG` (R143). -/
  | spiDeselect (pause : Pause)
  /-- `SPI_WRITE_ENABLE` (R144). -/
  | spiWriteEnable
  /-- `SPI_WRITE addr, data` (R145). -/
  | spiWrite (addr : BitVec 6) (data : BitVec 16)
  /-- `SPI_WRITE_DISABLE` (R146). -/
  | spiWriteDisable
  /-- `SET_FAMILY I2C|FOURWIRE` (R170). -/
  | setFamily (fam : Family)
  /-- `PROGRAM addr, value` (R171). -/
  | program (addr : Byte) (value : BitVec 16)
  deriving DecidableEq, Repr, Inhabited

end Sys2Proof
end

