-- ==== Sys2Proof/WellFormed.lean ====
section
/-! DEFINITION. Which commands are legal as they stand (spec/30_encoding.md R73 (c) and (d)). Only `SPI_SEND_FIELD` has
operand values its fields can hold and the spec refuses; the operand range of `PROGRAM` depends on FAMILY and is checked
when the command runs (R73, R171). -/

namespace Sys2Proof

/-- The width of a field is 1 to 16 (R73 (c), R141). -/
def fieldWidthLegal (width : BitVec 5) : Bool :=
  decide (1 ≤ width.toNat) && decide (width.toNat ≤ 16)

/-- The value of a field fits its width: `value < 2^width` (R73 (d), R141). -/
def fieldValueLegal (width : BitVec 5) (value : BitVec 16) : Bool :=
  decide (value.toNat < 2 ^ width.toNat)

/-- A command whose operands the decoder admits in every state (R73). -/
def Instr.wellFormed : Instr → Bool
  | .setLines _ _ _ => true
  | .i2cInit => true
  | .i2cStart => true
  | .i2cSendBit _ => true
  | .i2cSendByte _ => true
  | .i2cStop => true
  | .i2cWrite _ _ => true
  | .spiSelect => true
  | .spiSendField width value => fieldWidthLegal width && fieldValueLegal width value
  | .spiDeselect _ => true
  | .spiWriteEnable => true
  | .spiWrite _ _ => true
  | .spiWriteDisable => true
  | .setFamily _ => true
  | .program _ _ => true

end Sys2Proof
end

