-- ==== Sys2Proof/Decode.lean ====
section
/-! DEFINITION. The VTCORE-CMD encoding (spec/30_encoding.md R70 to R73): a decoder that is total on every 32-bit word and
refuses by name, and the encoder. A command is one 32-bit word; it is not stored in any byte-addressed memory (R52), so
no byte order enters. -/

namespace Sys2Proof

/-- Why a word is illegal (R73). Every one of these raises IllegalCommand when the word is executed (R203). -/
inductive DecodeError where
  /-- R73 (a): `OP = 0x0`. -/
  | reservedOpcode
  /-- R73 (b): a bit outside the operand fields is 1. -/
  | reservedBits
  /-- R73 (c): `SPI_SEND_FIELD` with `width = 0` or `width > 16`. -/
  | fieldWidth
  /-- R73 (d): `SPI_SEND_FIELD` with `value >= 2^width`. -/
  | fieldValue
  deriving DecidableEq, Repr

/-- `w[lo+len-1 : lo]`, an unsigned field of `len` bits (R10, R72). -/
def bitField (lo len : Nat) (w : Word) : BitVec len := w.extractLsb' lo len

/-- `OP = CMD[31:28]` (R70). -/
def opcodeOf (w : Word) : BitVec 4 := bitField 28 4 w

/-- The bits of `CMD[27:n]` are all 0: no reserved bit above the `n` operand bits is set (R70, R73 (b)). -/
def reservedClear (n : Nat) (w : Word) : Bool := decide ((bitField 0 28 w).toNat < 2 ^ n)

/-- The command if its reserved bits are clear, else the refusal of R73 (b). -/
def withReserved (n : Nat) (w : Word) (i : Except DecodeError Instr) : Except DecodeError Instr :=
  if reservedClear n w then i else .error .reservedBits

/-- `SPI_SEND_FIELD` with the two checks of R73 (c) and (d). -/
def decodeField (width : BitVec 5) (value : BitVec 16) : Except DecodeError Instr :=
  if !fieldWidthLegal width then .error .fieldWidth
  else if !fieldValueLegal width value then .error .fieldValue
  else .ok (.spiSendField width value)

/-- `long = 0` is `SHORT`, `long = 1` is `LONG` (R75). -/
def pauseOfBit (long : Bool) : Pause := if long then .long else .short

/-- `fam = 0` is `I2C`, `fam = 1` is `FOURWIRE` (R71). -/
def familyOfBit (fam : Bool) : Family := if fam then .fourwire else .i2c

/-- The command a word stands for, or why it is illegal (R71, R73). The number after `withReserved` is how many of the
low bits of `CMD[27:0]` the opcode's operand fields take up. -/
def decode (w : Word) : Except DecodeError Instr :=
  match (opcodeOf w).toNat with
  | 0x1 => withReserved 3 w (.ok (.setLines (w.getLsbD 2) (w.getLsbD 1) (w.getLsbD 0)))
  | 0x2 => withReserved 0 w (.ok .i2cInit)
  | 0x3 => withReserved 0 w (.ok .i2cStart)
  | 0x4 => withReserved 1 w (.ok (.i2cSendBit (w.getLsbD 0)))
  | 0x5 => withReserved 8 w (.ok (.i2cSendByte (bitField 0 8 w)))
  | 0x6 => withReserved 0 w (.ok .i2cStop)
  | 0x7 => withReserved 16 w (.ok (.i2cWrite (bitField 8 8 w) (bitField 0 8 w)))
  | 0x8 => withReserved 0 w (.ok .spiSelect)
  | 0x9 => withReserved 21 w (decodeField (bitField 16 5 w) (bitField 0 16 w))
  | 0xA => withReserved 1 w (.ok (.spiDeselect (pauseOfBit (w.getLsbD 0))))
  | 0xB => withReserved 0 w (.ok .spiWriteEnable)
  | 0xC => withReserved 22 w (.ok (.spiWrite (bitField 16 6 w) (bitField 0 16 w)))
  | 0xD => withReserved 0 w (.ok .spiWriteDisable)
  | 0xE => withReserved 1 w (.ok (.setFamily (familyOfBit (w.getLsbD 0))))
  | 0xF => withReserved 24 w (.ok (.program (bitField 16 8 w) (bitField 0 16 w)))
  | _ => .error .reservedOpcode

/-- The operand bit of `SPI_DESELECT` (R71). -/
def bitOfPause : Pause → Bool
  | .short => false
  | .long => true

/-- The operand bit of `SET_FAMILY` (R71). -/
def bitOfFamily : Family → Bool
  | .i2c => false
  | .fourwire => true

/-- The command word of a command: `{OP, reserved zeros, operand fields}` (R70, R71). It is also what FAULT.CMD records
for a command that faults (R207). -/
def encode : Instr → Word
  | .setLines cs clk dataOut =>
      0x1#4 ++ 0#25 ++ BitVec.ofBool cs ++ BitVec.ofBool clk ++ BitVec.ofBool dataOut
  | .i2cInit => 0x2#4 ++ 0#28
  | .i2cStart => 0x3#4 ++ 0#28
  | .i2cSendBit v => 0x4#4 ++ 0#27 ++ BitVec.ofBool v
  | .i2cSendByte b => 0x5#4 ++ 0#20 ++ b
  | .i2cStop => 0x6#4 ++ 0#28
  | .i2cWrite addr val => 0x7#4 ++ 0#12 ++ addr ++ val
  | .spiSelect => 0x8#4 ++ 0#28
  | .spiSendField width value => 0x9#4 ++ 0#7 ++ width ++ value
  | .spiDeselect pause => 0xA#4 ++ 0#27 ++ BitVec.ofBool (bitOfPause pause)
  | .spiWriteEnable => 0xB#4 ++ 0#28
  | .spiWrite addr data => 0xC#4 ++ 0#6 ++ addr ++ data
  | .spiWriteDisable => 0xD#4 ++ 0#28
  | .setFamily fam => 0xE#4 ++ 0#27 ++ BitVec.ofBool (bitOfFamily fam)
  | .program addr value => 0xF#4 ++ 0#4 ++ addr ++ value

/-- The 32-bit command word whose low `nbits` bits are those of `w` and whose other bits are 0. -/
def tableWord (nbits w : Nat) : Word := BitVec.ofNat 32 (w % 2 ^ nbits)

/-- The command the decoder reads from an opcode-table word, `none` where it refuses. -/
def decodeTableWord (nbits w : Nat) : Option Instr :=
  match decode (tableWord nbits w) with
  | .ok i => some i
  | .error _ => none

end Sys2Proof
end

