-- ==== Sys2Proof/Config.lean ====
section
/-! DEFINITION. The parameters of spec/00_scope.md R8, and the free values: what the spec leaves open and calls a draw.

A parameter with a value in R8 is a field of `Defaults`, whose default is that value and may be overridden (R8). An OPEN
parameter is a field of `Board`. `Configuration` pairs the two with the proof that the constraints of R8 and R46 hold, so
that a configuration that is not one of this hardware cannot be built (R46; `Machine.powerOn` refuses it by name). The
parameters are fixed for a run (R30). `I2C_STOP_DATA` is fixed at 0 by R8 and so is no parameter. -/

namespace Sys2Proof

/-- `PORT_BYTE_ORDER` (R45): how the port bus maps the 32 bits to byte lanes. OPEN; no rule depends on it
(log entry 16). -/
inductive ByteOrder where
  /-- The least significant byte in the lane of the lowest address. -/
  | little
  /-- The most significant byte in the lane of the lowest address. -/
  | big
  deriving DecidableEq, Repr, Inhabited

/-- The parameters R8 gives a value, each with it. -/
structure Defaults where
  /-- `PORT_ADDR_WIDTH`: the width of a port address (R8, R42). -/
  portAddrWidth : Nat := 16
  /-- `DEV_SEL`: the I2C-style device-select byte (R66). -/
  devSel : Byte := 0xA0#8
  /-- `I2C_BIT_CS`: chip_select during every I2C-style Send-Bit phase (R113, C1). -/
  i2cBitCs : Bool := false
  /-- `SPI_OPC_WEN` (R69). -/
  spiOpcWen : BitVec 3 := 4#3
  /-- `SPI_OPC_WRITE` (R69). -/
  spiOpcWrite : BitVec 3 := 5#3
  /-- `SPI_OPC_WDS` (R69). -/
  spiOpcWds : BitVec 3 := 4#3
  /-- `SPI_ADDR_WEN` (R69). -/
  spiAddrWen : BitVec 6 := 0#6
  /-- `SPI_ADDR_WDS` (R69). -/
  spiAddrWds : BitVec 6 := 0#6
  /-- `SPI_DATA_WEN` (R69). -/
  spiDataWen : BitVec 16 := 0#16
  /-- `SPI_DATA_WDS` (R69). -/
  spiDataWds : BitVec 16 := 0#16
  deriving DecidableEq, Repr, Inhabited

/-- The parameters R8 leaves OPEN. Every hold is a minimum duration, all in one unit that the spec does not name (R121,
R241, R250). The values shown only make the type inhabited: nothing of the model reads them (log entry 17). -/
structure Board where
  /-- `IO_BASE`: supplied by the Device Access Layer (R30). -/
  ioBase : Nat := 0
  /-- `GPIO_OFFSET` (R21, R42). -/
  gpioOffset : Nat := 0
  /-- `MEM_BASE`: the memory-mapped base, which the engine never uses (R30, R40). -/
  memBase : Nat := 0
  /-- `DUMP_OFFSET`: the Dump Reader's register, at the boundary only (R41). -/
  dumpOffset : Nat := 0
  /-- `P_CS`: the bit position of chip_select (R21). -/
  pCs : Fin 32 := 3
  /-- `P_CLK`: the bit position of clock (R21). -/
  pClk : Fin 32 := 2
  /-- `P_DO`: the bit position of data_out (R21). -/
  pDo : Fin 32 := 1
  /-- `P_OE`: the bit position of output_enable (R21). -/
  pOe : Fin 32 := 0
  /-- `P_FAM`: the bit position of the family status bit (R29). -/
  pFam : Fin 32 := 4
  /-- `FAM_POL`: the value of the status bit that means the 4-wire family (R29). -/
  famPol : Bool := true
  /-- `PORT_BYTE_ORDER` (R45). -/
  portByteOrder : ByteOrder := .little
  /-- `T_I2C_INIT` (R121). -/
  tI2cInit : Nat := 0
  /-- `T_I2C_FRAME` (R121). -/
  tI2cFrame : Nat := 0
  /-- `T_I2C_BIT` (R121). -/
  tI2cBit : Nat := 0
  /-- `T_SPI_PRE` (R140). -/
  tSpiPre : Nat := 0
  /-- `T_SPI_BIT` (R140). -/
  tSpiBit : Nat := 0
  /-- `T_SPI_SHORT` (R150). -/
  tSpiShort : Nat := 0
  /-- `T_SPI_LONG` (R150). -/
  tSpiLong : Nat := 1
  /-- `T_I2C_WR`: an obligation of the host, which the engine neither serves nor checks (R246). -/
  tI2cWr : Nat := 0
  deriving DecidableEq, Repr, Inhabited

/-- `GPIO_ADDR = IO_BASE + GPIO_OFFSET` (R21, R42). -/
def Board.gpioAddr (b : Board) : Nat := b.ioBase + b.gpioOffset

/-- The address of the Dump Reader's register, which no command accesses (R41). -/
def Board.dumpAddr (b : Board) : Nat := b.memBase + b.dumpOffset

/-- The five bit positions of the register are distinct (R8, rows `P_CS` to `P_FAM`). -/
def Board.pinsDistinct (b : Board) : Bool :=
  decide ([b.pCs, b.pClk, b.pDo, b.pOe, b.pFam].Nodup)

/-- The constraints of R8 and of R46 on the parameters (log entry 18). -/
def legalParameters (d : Defaults) (b : Board) : Bool :=
  decide (b.ioBase < 2 ^ d.portAddrWidth)
    && decide (b.gpioAddr < 2 ^ d.portAddrWidth)
    && decide (b.gpioAddr % 4 = 0)
    && b.pinsDistinct
    && !d.devSel.getLsbD 0
    && decide (b.tSpiShort < b.tSpiLong)

/-- A configuration of this hardware: parameters that meet the constraints of R8 and R46. -/
structure Configuration where
  /-- The parameters R8 gives a value. -/
  defaults : Defaults := {}
  /-- The parameters R8 leaves OPEN. -/
  board : Board := {}
  /-- The constraints hold (R8, R46). -/
  legal : legalParameters defaults board = true := by decide
  deriving DecidableEq, Repr, Inhabited

/-- The register's port address (R21). -/
def Configuration.gpioAddr (c : Configuration) : Nat := c.board.gpioAddr

/-- OPEN parameters that are legal beside the default values of R8. -/
structure LegalBoard where
  /-- The OPEN parameters. -/
  board : Board := {}
  /-- They meet the constraints of R8 and R46 beside the defaults. -/
  legal : legalParameters {} board = true := by decide
  deriving DecidableEq, Repr, Inhabited

/-- One answer of the port bus to a write of the register (R205). -/
inductive PortAnswer where
  /-- The write succeeds. -/
  | accepted
  /-- The port bus fails the write. -/
  | failed
  deriving DecidableEq, Repr, Inhabited

/-- The board the machine of `State.reset` stands on: any board that R8 allows (R8: a model takes every OPEN parameter as
an argument). DESIGN CHOICE, safe; log entry 2. -/
opaque Config.board : LegalBoard

/-- FREE VALUE: what LINES holds when it is unknown, after reset (R21, R32) and after a failed write (R205). Applied to
the counter of draws. Safe; log entries 4 and 6. -/
opaque Config.drawLines : Nat → Word

/-- FREE VALUE: the answer of the port bus to a write whose answer the state does not list (R205: a free draw the model
does not constrain). Applied to the counter of draws. Safe; log entry 5. -/
opaque Config.drawPortAnswer : Nat → PortAnswer

/-- FREE VALUE: what a read of the register by the host returns at the bits no rule fixes (R33, R29). Safe; log entry 8. -/
opaque Config.drawReadback : Nat → Word

/-- FREE VALUE: FAULT.PC while FAULT.CODE = 0 after reset (R26, R32). Safe; log entry 4. -/
opaque Config.drawFaultPc : Nat → Nat

/-- FREE VALUE: FAULT.CMD while FAULT.CODE = 0 after reset (R26, R32). Safe; log entry 4. -/
opaque Config.drawFaultCmd : Nat → Word

/-- FREE VALUE: the family status bit that the hardware gives (R32: hardware-determined). Safe; log entry 4. -/
opaque Config.familyStatus : Bool

/-- The configuration of the machine after `State.reset`: the values R8 gives, and any legal board. -/
def Config.current : Configuration := ⟨{}, Config.board.board, Config.board.legal⟩

end Sys2Proof
end

