-- ==== Sys2Proof/Machine/State.lean ====
section
/-! DEFINITION. The state of the engine (spec/10_state.md R20 to R33) and of the two agents it acts with, the host's
command stream and the port bus (spec/00_scope.md R7), all plain data; why a step can stop; and the state after reset
(spec/70_reset_and_hazards.md R230). The engine has no general registers (R20), no flags (R28) and no memory (R40). -/

namespace Sys2Proof.Machine

/-- SESSION, the protocol-session state (R25). -/
inductive Session where
  /-- `NONE`: no session is open. -/
  | none
  /-- `I2C_READY`: Init done, Start not yet sent. -/
  | i2cReady
  /-- `I2C_STARTED`: Start sent, Stop not yet sent. -/
  | i2cStarted
  /-- `SPI_SELECTED`: chip-select asserted by `SPI_SELECT`, not yet deselected. -/
  | spiSelected
  deriving DecidableEq, Repr, Inhabited

/-- The parameter a hold names (R11, R250). -/
inductive HoldName where
  /-- `T_I2C_INIT`. -/
  | i2cInit
  /-- `T_I2C_FRAME`. -/
  | i2cFrame
  /-- `T_I2C_BIT`. -/
  | i2cBit
  /-- `T_SPI_PRE`. -/
  | spiPre
  /-- `T_SPI_BIT`. -/
  | spiBit
  /-- `T_SPI_SHORT`. -/
  | spiShort
  /-- `T_SPI_LONG`. -/
  | spiLong
  deriving DecidableEq, Repr, Inhabited

/-- An event of the trace (R6, R11). -/
inductive Event where
  /-- `W(w)`: one 32-bit write of the word to the port address (R42; the address is log entry 9). -/
  | write (addr : Nat) (word : Word)
  /-- `H(T)`: the lines are left unchanged for at least the duration the parameter names. -/
  | hold (t : HoldName)
  /-- `F(code)`: a fault. -/
  | fault (code : BitVec 3)
  deriving DecidableEq, Repr, Inhabited

/-- FAULT, the record of the first fault (R26). -/
structure FaultRecord where
  /-- `FAULT.CODE`, 3 bits; 0 means no fault (R202). -/
  code : BitVec 3
  /-- `FAULT.PC`, the `pc` of the faulting command. -/
  pc : Nat
  /-- `FAULT.CMD`, the faulting command word. -/
  cmd : Word
  deriving DecidableEq, Repr, Inhabited

/-- The state of the machine. -/
structure State where
  /-- The parameters of R8, fixed for a run (R30): the step's only argument is the state (log entry 1). -/
  config : Configuration
  /-- The host's command stream, numbered from 0 (R27). No command reads or writes it (R52; log
  entry 12). -/
  commands : List Word
  /-- `pc`, the index of the command being executed: an unbounded natural (R27). -/
  pc : Nat
  /-- `LINES`, the value last written to the GPIO control register (R21). -/
  lines : Word
  /-- The family status bit at `P_FAM`, which the hardware determines and the engine never reads (R29, R32). -/
  familyBit : Bool
  /-- The engine has made or tried a write of the register since the machine was set up. Reset does not clear it: it writes
  nothing and brings nothing back (R230). After such a write a read of `P_FAM` is a draw (R29, R247, U10). The MODEL's own
  field (log entries 19 and 29). -/
  registerWritten : Bool
  /-- FAMILY: `none` is `UNSET` (R24). -/
  family : Option Family
  /-- SESSION (R25). -/
  session : Session
  /-- FAULT (R26). -/
  fault : FaultRecord
  /-- The trace, oldest event first (R6). -/
  trace : List Event
  /-- The port bus, the agent that answers each write (R7, R205): its answers to the coming writes, soonest first. A write
  past the end of the list is answered by a free draw. The MODEL's own field (log entry 5). -/
  bus : List PortAnswer
  /-- How many free draws have been made. The MODEL's own field (log entry 7). -/
  draws : Nat
  deriving DecidableEq, Repr

/-- Why the machine stops with a fault. -/
inductive Fault where
  /-- A step, or a command, is asked of an engine that has recorded a fault: it takes no command until reset (R201, R209;
  spec/93_implementation_defined.md U21: stuck; log entry 3). Raised by `step` and by every meaning. Safe: the spec says the same. -/
  | halted
  deriving DecidableEq, Repr

/-- Why the model gives no meaning. -/
inductive Refusal where
  /-- An instruction that has no meaning yet. Raised by no arm: every command of the table has its meaning. Safe. -/
  | notModelled (mnemonic : String)
  /-- Parameters that are no configuration of this hardware (R46, U12). Raised by `powerOn` before any command runs. Safe:
  the spec refuses the same. -/
  | illegalConfiguration
  deriving DecidableEq, Repr

/-- The machine right after reset (R32, R230). LINES, FAULT.PC, FAULT.CMD and the family status bit have no reset value in
the spec and are free values (log entry 4); the host has issued no command yet (R231). -/
def State.reset : State where
  config := Config.current
  commands := []
  pc := 0
  lines := Config.drawLines 0
  familyBit := Config.familyStatus
  registerWritten := false
  family := Option.none
  session := .none
  fault := { code := 0#3, pc := Config.drawFaultPc 0, cmd := Config.drawFaultCmd 0 }
  trace := []
  bus := []
  draws := 1

end Sys2Proof.Machine
end

