-- ==== Sys2Proof/Machine/Flags.lean ====
section
/-! DEFINITION. The engine has no condition codes (spec/10_state.md R28): what a command tests are FAMILY, SESSION and
FAULT alone. This file holds the fault codes (spec/60_exceptions.md R202) and those tests (R201, R204). -/

namespace Sys2Proof.Machine

/-- The causes of a fault (R202). -/
inductive FaultCause where
  /-- An illegal command word, or a `PROGRAM` operand outside the latched family's range (R203). -/
  | illegalCommand
  /-- The SESSION precondition fails, or `SET_FAMILY` runs with FAMILY set (R206). -/
  | sequenceError
  /-- FAMILY is `UNSET` or names the other family (R204). -/
  | familyError
  /-- The port bus failed a write (R205). -/
  | portWriteFailure
  deriving DecidableEq, Repr

/-- The number of a cause in `FAULT.CODE` (R202). -/
def FaultCause.code : FaultCause → BitVec 3
  | .illegalCommand => 1#3
  | .sequenceError => 2#3
  | .familyError => 3#3
  | .portWriteFailure => 4#3

/-- `FAULT.CODE != 0`: the engine is halted (R201, R209). -/
def State.halted (s : State) : Bool := decide (s.fault.code ≠ 0#3)

/-- What a command requires of FAMILY (R204). -/
inductive FamilyNeed where
  /-- Any FAMILY, `UNSET` included: `SET_LINES`, `SET_FAMILY`. -/
  | any
  /-- The named family: the `I2C_*` and the `SPI_*` commands. -/
  | only (f : Family)
  /-- Either family, but not `UNSET`: `PROGRAM`. -/
  | latched
  deriving DecidableEq, Repr

/-- FAMILY meets the need of a command; if not, the command raises FamilyError (R201, R204). -/
def familyMatches : FamilyNeed → Option Family → Bool
  | .any, _ => true
  | .only f, latch => decide (latch = some f)
  | .latched, latch => latch.isSome

end Sys2Proof.Machine
end

