-- ==== Sys2Proof/Machine/Ops.lean ====
section
/-! DEFINITION. The operations every command is made of: the port word (spec/30_encoding.md R61), the port write and its
failure (spec/20_memory.md R42, spec/60_exceptions.md R205), the hold (spec/00_scope.md R11), the drive
(spec/40_gpio_line_driver.md R101), taking a fault (R207) and the only way back from one, reset (R209, R230), and the
common checks (R201). -/

namespace Sys2Proof.Machine

/-! ## The port word -/

/-- `zext_32(b) << p` (R61). -/
def lineAt (b : Bool) (p : Fin 32) : Word := (BitVec.ofBool b).setWidth 32 <<< p.val

/-- `compose(cs, clk, do)`: the port word, with output_enable 1 and every other bit 0 (R61). -/
def compose (c : Configuration) (cs clk dataOut : Bool) : Word :=
  lineAt cs c.board.pCs ||| lineAt clk c.board.pClk ||| lineAt dataOut c.board.pDo ||| lineAt true c.board.pOe

/-- `GPIO_ADDR` (R21, R42). -/
def State.gpioAddr (s : State) : Nat := s.config.gpioAddr

/-! ## Taking a fault, and reset -/

/-- `raise Fault(code)`: record the code, the `pc` and the command word, and append `F(code)` (R207). Nothing else is
saved and nothing else changes. The word is the fetched one (log entry 14). -/
def takeFault (cause : FaultCause) (cmd : Word) (s : State) : State :=
  { s with
    fault := { code := cause.code, pc := s.pc, cmd := cmd }
    trace := s.trace ++ [.fault cause.code] }

/-- Reset, which is the only return from a fault (R209, R230): the host starts a new command stream at `pc = 0`. LINES,
FAULT.PC and FAULT.CMD become unknown (R32); no write is made; the parameters (R30), the family status bit (R32) and the
port bus, which are not the engine's, stay (log entry 13), and so does the memory of an earlier write of the register
(R29, R230; log entry 29). -/
def resetEngine (commands : List Word) (s : State) : State :=
  { s with
    commands := commands
    pc := 0
    lines := Config.drawLines s.draws
    family := Option.none
    session := .none
    fault := { code := 0#3, pc := Config.drawFaultPc s.draws, cmd := Config.drawFaultCmd s.draws }
    trace := []
    draws := s.draws + 1 }

/-! ## The port bus -/

/-- The port bus's answer to the `k`-th write from now, counted from 0: the listed one, and past the list a free draw
(R205). -/
def State.answer (s : State) (k : Nat) : PortAnswer :=
  match s.bus[k]? with
  | some a => a
  | Option.none => Config.drawPortAnswer (s.draws + (k - s.bus.length))

/-- The port bus has given its next `n` answers: the register has been written, or a write of it tried, if `n` is not 0. -/
def State.spent (s : State) (n : Nat) : State :=
  { s with
    registerWritten := s.registerWritten || decide (0 < n)
    bus := s.bus.drop n
    draws := s.draws + (n - s.bus.length) }

/-- The port bus accepts each of the next `n` writes. -/
abbrev State.accepts (s : State) (n : Nat) : Prop := ∀ k < n, s.answer k = .accepted

/-- How a write or a run of writes ends (R205). -/
inductive Progress where
  /-- Every write succeeded. -/
  | done (s : State)
  /-- The port bus failed a write, in the state after that failure. -/
  | failed (s : State)
  deriving DecidableEq, Repr

/-- `PortWrite(addr, 4, w)`: one 32-bit write, which sets LINES and appends `W(w)` (R42, R44). A write the port bus fails
appends no event and leaves LINES unknown (R205). -/
def portWrite (addr : Nat) (w : Word) (s : State) : Progress :=
  match s.answer 0 with
  | .accepted =>
      let t := s.spent 1
      .done { t with lines := w, trace := t.trace ++ [.write addr w] }
  | .failed =>
      let t := s.spent 1
      .failed { t with lines := Config.drawLines t.draws, draws := t.draws + 1 }

/-- `Hold(T)`: append `H(T)`; the lines do not change (R11). -/
def hold (t : HoldName) (s : State) : State := { s with trace := s.trace ++ [.hold t] }

/-! ## Driving the lines -/

/-- One line change: the values of the three lines, and the hold that follows, which `SET_LINES` alone has not
(R100, R101). -/
structure Drive where
  /-- chip_select. -/
  cs : Bool
  /-- clock. -/
  clk : Bool
  /-- data_out. -/
  dataOut : Bool
  /-- The hold after the write. -/
  hold : Option HoldName
  deriving DecidableEq, Repr

/-- Serve the hold of a drive, if it has one (R101). -/
def serve : Option HoldName → State → State
  | Option.none, s => s
  | some t, s => hold t s

/-- `Drive(cs, clk, do, T)`: one write of the composed word, then its hold; a failed write serves no hold (R101). -/
def drive (d : Drive) (s : State) : Progress :=
  match portWrite s.gpioAddr (compose s.config d.cs d.clk d.dataOut) s with
  | .done t => .done (serve d.hold t)
  | .failed t => .failed t

/-- The drives of a command, one after another; the first that fails ends them (R49, R205). -/
def driveAll : List Drive → State → Progress
  | [], s => .done s
  | d :: ds, s =>
      match drive d s with
      | .done t => driveAll ds t
      | .failed t => .failed t

/-- The end of every command that completes: SESSION takes its value after the command and `pc` advances by 1
(R25, R27). -/
def finish (after : Session) (s : State) : State := { s with session := after, pc := s.pc + 1 }

/-- Run the line changes of a command and finish it. If the port bus fails a write, the command stops there with
PortWriteFailure: SESSION and `pc` keep their values (R205). -/
def transmit (i : Instr) (drives : List Drive) (after : Session) (s : State) : State :=
  match driveAll drives s with
  | .done t => finish after t
  | .failed t => takeFault .portWriteFailure (encode i) t

/-! ## The common checks -/

/-- `Step(CMD)` around a command's own pseudocode (R201): a halted engine takes no command; then, in this order, an
illegal command, the family and the session raise their faults (R208), before any write. Every command accepts exactly
one value of SESSION (R25). A term no word decodes to is illegal too (log entry 15). -/
def command (i : Instr) (need : FamilyNeed) (accepted : Session) (body : State → State) (s : State) :
    Host.Outcome State Fault Refusal :=
  if s.halted then .fault .halted
  else if !i.wellFormed then .next (takeFault .illegalCommand (encode i) s)
  else if !familyMatches need s.family then .next (takeFault .familyError (encode i) s)
  else if s.session ≠ accepted then .next (takeFault .sequenceError (encode i) s)
  else .next (body s)

end Sys2Proof.Machine
end

