-- ==== Sys2Proof/Machine/Operands.lean ====
section
/-! DEFINITION. The operand forms of the engine: a field of bits sent most significant bit first (spec/00_scope.md R13,
spec/30_encoding.md R64, R67), a bit as three line changes (R63, R67), and the pause and family operands (R75). -/

namespace Sys2Proof.Machine

/-- The bits `value[n-1], ..., value[0]`, in that order (R64, R67). -/
def bitsMsbFirst {m : Nat} (value : BitVec m) : Nat → List Bool
  | 0 => []
  | n + 1 => value.getLsbD n :: bitsMsbFirst value n

/-- The three phases of a bit: the same data with the clock low, high, low, each held (R63, R113, R141). -/
def bitPulse (cs : Bool) (t : HoldName) (v : Bool) : List Drive :=
  [⟨cs, false, v, some t⟩, ⟨cs, true, v, some t⟩, ⟨cs, false, v, some t⟩]

/-- A bit frame: the pulses of its bits, in order (R64, R67). -/
def pulses (cs : Bool) (t : HoldName) (bits : List Bool) : List Drive :=
  bits.flatMap (bitPulse cs t)

/-- The hold an `SPI_DESELECT` serves (R143). -/
def holdOfPause : Pause → HoldName
  | .short => .spiShort
  | .long => .spiLong

end Sys2Proof.Machine
end

