-- ==== Sys2Proof/Machine/I2cEngine.lean ====
section
/-! DEFINITION. The I2C-style engine (spec/41_i2c_engine.md R110 to R122): the line changes of its phases, and its
commands, each of which requires FAMILY = `I2C`. -/

namespace Sys2Proof.Machine

/-- Init: clock and data low, then clock and data high, chip-select asserted (R111). -/
def initDrives : List Drive :=
  [⟨true, false, false, some .i2cInit⟩, ⟨true, true, true, some .i2cInit⟩]

/-- Start: data low with clock high, then clock low, chip-select asserted (R112). -/
def startDrives : List Drive :=
  [⟨true, true, false, some .i2cFrame⟩, ⟨true, false, false, some .i2cFrame⟩]

/-- `SendBit(v)`: chip-select is the parameter `I2C_BIT_CS` (R113). -/
def sendBit (c : Configuration) (v : Bool) : List Drive := bitPulse c.defaults.i2cBitCs .i2cBit v

/-- `SendByte(b)`: eight bits, most significant first, then the acknowledge slot, driven 0 (R114, R117). -/
def sendByte (c : Configuration) (b : Byte) : List Drive :=
  pulses c.defaults.i2cBitCs .i2cBit (bitsMsbFirst b 8) ++ sendBit c false

/-- `I2C_STOP_DATA`, fixed at 0 (R8, R115). -/
def i2cStopData : Bool := false

/-- Stop: clock low, clock high, then data rising with clock high, chip-select asserted (R115). -/
def stopDrives : List Drive :=
  [⟨true, false, i2cStopData, some .i2cFrame⟩, ⟨true, true, i2cStopData, some .i2cFrame⟩,
    ⟨true, true, true, some .i2cFrame⟩]

/-- A whole write transaction: Init, Start, three bytes, Stop (R65, R116). -/
def writeTransaction (c : Configuration) (addr val : Byte) : List Drive :=
  initDrives ++ startDrives ++ sendByte c c.defaults.devSel ++ sendByte c addr ++ sendByte c val ++ stopDrives

/-- `I2C_INIT` (R111). -/
def execI2cInit (s : State) : Host.Outcome State Fault Refusal :=
  command .i2cInit (.only .i2c) .none (transmit .i2cInit initDrives .i2cReady) s

/-- `I2C_START` (R112). -/
def execI2cStart (s : State) : Host.Outcome State Fault Refusal :=
  command .i2cStart (.only .i2c) .i2cReady (transmit .i2cStart startDrives .i2cStarted) s

/-- `I2C_SEND_BIT v` (R113). -/
def execI2cSendBit (v : Bool) (s : State) : Host.Outcome State Fault Refusal :=
  command (.i2cSendBit v) (.only .i2c) .i2cStarted
    (transmit (.i2cSendBit v) (sendBit s.config v) .i2cStarted) s

/-- `I2C_SEND_BYTE b` (R114). -/
def execI2cSendByte (b : Byte) (s : State) : Host.Outcome State Fault Refusal :=
  command (.i2cSendByte b) (.only .i2c) .i2cStarted
    (transmit (.i2cSendByte b) (sendByte s.config b) .i2cStarted) s

/-- `I2C_STOP` (R115). -/
def execI2cStop (s : State) : Host.Outcome State Fault Refusal :=
  command .i2cStop (.only .i2c) .i2cStarted (transmit .i2cStop stopDrives .none) s

/-- `I2C_WRITE addr, val` (R116). -/
def execI2cWrite (addr val : Byte) (s : State) : Host.Outcome State Fault Refusal :=
  command (.i2cWrite addr val) (.only .i2c) .none
    (transmit (.i2cWrite addr val) (writeTransaction s.config addr val) .none) s

end Sys2Proof.Machine
end

