-- ==== Sys2Proof/Machine/Spi4Engine.lean ====
section
/-! DEFINITION. The 4-wire engine (spec/42_spi4_engine.md R140 to R152): the line changes of a session, and its commands,
each of which requires FAMILY = `FOURWIRE`. -/

namespace Sys2Proof.Machine

/-- A brief deselect, then chip-select assertion in its own write (R140, R142). -/
def selectDrives : List Drive :=
  [⟨false, false, false, some .spiPre⟩, ⟨true, false, false, some .spiBit⟩]

/-- `SendField(width, value)`: the low `width` bits, most significant first, chip-select asserted (R67, R141). -/
def sendField {m : Nat} (width : Nat) (value : BitVec m) : List Drive :=
  pulses true .spiBit (bitsMsbFirst value width)

/-- Deselection, then its pause (R140, R143). -/
def deselectDrives (pause : HoldName) : List Drive := [⟨false, false, false, some pause⟩]

/-- A command sequence: select, the 3-bit, 6-bit and 16-bit fields, deselect and pause (R68, R140). -/
def commandSequence (opc : BitVec 3) (addr : BitVec 6) (data : BitVec 16) (pause : HoldName) : List Drive :=
  selectDrives ++ sendField 3 opc ++ sendField 6 addr ++ sendField 16 data ++ deselectDrives pause

/-- The Write-Enable sequence, with the short pause (R144). -/
def writeEnableDrives (c : Configuration) : List Drive :=
  commandSequence c.defaults.spiOpcWen c.defaults.spiAddrWen c.defaults.spiDataWen .spiShort

/-- The Write sequence, with the long pause (R145). -/
def writeDrives (c : Configuration) (addr : BitVec 6) (data : BitVec 16) : List Drive :=
  commandSequence c.defaults.spiOpcWrite addr data .spiLong

/-- The Write-Disable sequence, with the short pause (R146). -/
def writeDisableDrives (c : Configuration) : List Drive :=
  commandSequence c.defaults.spiOpcWds c.defaults.spiAddrWds c.defaults.spiDataWds .spiShort

/-- `SPI_SELECT` (R142). -/
def execSpiSelect (s : State) : Host.Outcome State Fault Refusal :=
  command .spiSelect (.only .fourwire) .none (transmit .spiSelect selectDrives .spiSelected) s

/-- `SPI_SEND_FIELD width, value` (R141). -/
def execSpiSendField (width : BitVec 5) (value : BitVec 16) (s : State) : Host.Outcome State Fault Refusal :=
  command (.spiSendField width value) (.only .fourwire) .spiSelected
    (transmit (.spiSendField width value) (sendField width.toNat value) .spiSelected) s

/-- `SPI_DESELECT SHORT|LONG` (R143). -/
def execSpiDeselect (pause : Pause) (s : State) : Host.Outcome State Fault Refusal :=
  command (.spiDeselect pause) (.only .fourwire) .spiSelected
    (transmit (.spiDeselect pause) (deselectDrives (holdOfPause pause)) .none) s

/-- `SPI_WRITE_ENABLE` (R144). -/
def execSpiWriteEnable (s : State) : Host.Outcome State Fault Refusal :=
  command .spiWriteEnable (.only .fourwire) .none
    (transmit .spiWriteEnable (writeEnableDrives s.config) .none) s

/-- `SPI_WRITE addr, data` (R145). -/
def execSpiWrite (addr : BitVec 6) (data : BitVec 16) (s : State) : Host.Outcome State Fault Refusal :=
  command (.spiWrite addr data) (.only .fourwire) .none
    (transmit (.spiWrite addr data) (writeDrives s.config addr data) .none) s

/-- `SPI_WRITE_DISABLE` (R146). -/
def execSpiWriteDisable (s : State) : Host.Outcome State Fault Refusal :=
  command .spiWriteDisable (.only .fourwire) .none
    (transmit .spiWriteDisable (writeDisableDrives s.config) .none) s

end Sys2Proof.Machine
end

