-- ==== Sys2Proof/Machine/Glue.lean ====
section
/-! DEFINITION. Family selection and the whole reprogramming (spec/43_selection_glue.md R170 to R172). -/

namespace Sys2Proof.Machine

/-- The pseudocode of `SET_FAMILY` (R170): FAMILY is set once; a second `SET_FAMILY` is a SequenceError (R206). -/
def latchFamily (fam : Family) (s : State) : State :=
  match s.family with
  | some _ => takeFault .sequenceError (encode (.setFamily fam)) s
  | Option.none => finish .none { s with family := some fam }

/-- `SET_FAMILY I2C|FOURWIRE` (R170). -/
def execSetFamily (fam : Family) (s : State) : Host.Outcome State Fault Refusal :=
  command (.setFamily fam) .any .none (latchFamily fam) s

/-- The operands of `PROGRAM` are in the range of the family: a one-byte value on the two-wire family, a 6-bit address on
the 4-wire family (R171). -/
def programInRange (addr : Byte) (value : BitVec 16) : Family → Bool
  | .i2c => decide (value.extractLsb' 8 8 = 0#8)
  | .fourwire => decide (addr.extractLsb' 6 2 = 0#2)

/-- The line changes of `PROGRAM` (R171): the two-wire transaction, or Write-Enable, Write and Write-Disable. -/
def programDrives (c : Configuration) (addr : Byte) (value : BitVec 16) : Family → List Drive
  | .i2c => writeTransaction c addr (value.extractLsb' 0 8)
  | .fourwire => writeEnableDrives c ++ writeDrives c (addr.extractLsb' 0 6) value ++ writeDisableDrives c

/-- The pseudocode of `PROGRAM` (R171), run by the engine FAMILY names (R172). The operand range is checked last, before
any write (R201, R208). -/
def runProgram (addr : Byte) (value : BitVec 16) (s : State) : State :=
  match s.family with
  | Option.none => takeFault .familyError (encode (.program addr value)) s
  | some f =>
      if programInRange addr value f then
        transmit (.program addr value) (programDrives s.config addr value f) .none s
      else takeFault .illegalCommand (encode (.program addr value)) s

/-- `PROGRAM addr, value` (R171). -/
def execProgram (addr : Byte) (value : BitVec 16) (s : State) : Host.Outcome State Fault Refusal :=
  command (.program addr value) .latched .none (runProgram addr value) s

end Sys2Proof.Machine
end

