-- ==== Sys2Proof/Machine/LineDriver.lean ====
section
/-! DEFINITION. The GPIO line driver's command (spec/40_gpio_line_driver.md R100 to R102). -/

namespace Sys2Proof.Machine

/-- `SET_LINES cs, clk, do`: one write, no hold, under any FAMILY, with SESSION `NONE` (R100). -/
def execSetLines (cs clk dataOut : Bool) (s : State) : Host.Outcome State Fault Refusal :=
  command (.setLines cs clk dataOut) .any .none
    (transmit (.setLines cs clk dataOut) [⟨cs, clk, dataOut, Option.none⟩] .none) s

end Sys2Proof.Machine
end

