-- ==== Sys2Proof/Machine/Dispatch.lean ====
section
/-! DEFINITION. One arm for each command of spec/30_encoding.md R71. -/

namespace Sys2Proof.Machine

def exec (i : Instr) (s : State) : Host.Outcome State Fault Refusal :=
  match i with
  | .setLines cs clk dataOut => Sys2Proof.Machine.execSetLines cs clk dataOut s
  | .i2cInit => Sys2Proof.Machine.execI2cInit s
  | .i2cStart => Sys2Proof.Machine.execI2cStart s
  | .i2cSendBit v => Sys2Proof.Machine.execI2cSendBit v s
  | .i2cSendByte b => Sys2Proof.Machine.execI2cSendByte b s
  | .i2cStop => Sys2Proof.Machine.execI2cStop s
  | .i2cWrite addr val => Sys2Proof.Machine.execI2cWrite addr val s
  | .spiSelect => Sys2Proof.Machine.execSpiSelect s
  | .spiSendField width value => Sys2Proof.Machine.execSpiSendField width value s
  | .spiDeselect pause => Sys2Proof.Machine.execSpiDeselect pause s
  | .spiWriteEnable => Sys2Proof.Machine.execSpiWriteEnable s
  | .spiWrite addr data => Sys2Proof.Machine.execSpiWrite addr data s
  | .spiWriteDisable => Sys2Proof.Machine.execSpiWriteDisable s
  | .setFamily fam => Sys2Proof.Machine.execSetFamily fam s
  | .program addr value => Sys2Proof.Machine.execProgram addr value s

end Sys2Proof.Machine
end

