-- ==== Sys2Proof/Machine/Fetch.lean ====
section
/-! DEFINITION. The host's command stream (spec/10_state.md R27): the command at `pc`, and where a command is placed. The
engine fetches no instructions from memory (spec/20_memory.md R52). -/

namespace Sys2Proof.Machine

/-- `CMD`: the command word at index `pc`, `none` if the host has issued no such command (R27, R231). -/
def State.fetch (s : State) : Option Word := s.commands[s.pc]?

/-- The stream with the word `w` at index `n`, the rest unchanged; a shorter stream is first filled up with words of 0. -/
def placeAt : List Word → Nat → Word → List Word
  | [], 0, w => [w]
  | [], n + 1, w => 0#32 :: placeAt [] n w
  | _ :: rest, 0, w => w :: rest
  | c :: rest, n + 1, w => c :: placeAt rest n w

end Sys2Proof.Machine
end

