-- ==== Sys2Proof/Machine/Step.lean ====
section
/-! DEFINITION. One step (spec/60_exceptions.md R201): the engine executes the command at `pc`, or waits for it. -/

namespace Sys2Proof.Machine

/-- A halted engine takes no command (R201, R209). Without a command at `pc` the engine waits for one and nothing changes
(R231; log entry 10). An illegal word raises IllegalCommand before any write (R73, R203). A legal one is executed. -/
def step (s : State) : Host.Outcome State Fault Refusal :=
  if s.halted then .fault .halted
  else
    match s.fetch with
    | Option.none => .next s
    | some w =>
        match decode w with
        | .error _ => .next (takeFault .illegalCommand w s)
        | .ok i => exec i s

/-- The state with the command word placed where the next step fetches it: the host issues it as the command at `pc`
(log entry 11). -/
def State.withFetchWord (s : State) (nbits w : Nat) : State :=
  { s with commands := placeAt s.commands s.pc (tableWord nbits w) }

end Sys2Proof.Machine
end

