-- ==== Sys2Proof/Machine/Assembler.lean ====
section
/-! DEFINITION. The assembler syntax of the commands and its two kinds of pseudo-instruction (spec/30_encoding.md R75). A
line is taken after its text has been split at blanks and commas (log entry 25). -/

namespace Sys2Proof.Machine

/-- An operand as written (R75). -/
inductive AsmOperand where
  /-- A number. -/
  | number (n : Nat)
  /-- One of the words `SHORT`, `LONG`, `I2C`, `FOURWIRE`. -/
  | name (text : String)
  deriving DecidableEq, Repr

/-- A line: a mnemonic, then its operands in the order of R71. -/
structure AsmLine where
  /-- The mnemonic. -/
  mnemonic : String
  /-- The operands. -/
  operands : List AsmOperand
  deriving DecidableEq, Repr

/-- The value of a digit in base 16. -/
def digitValue (ch : Char) : Option Nat :=
  if '0' ≤ ch ∧ ch ≤ '9' then some (ch.toNat - '0'.toNat)
  else if 'a' ≤ ch ∧ ch ≤ 'f' then some (ch.toNat - 'a'.toNat + 10)
  else if 'A' ≤ ch ∧ ch ≤ 'F' then some (ch.toNat - 'A'.toNat + 10)
  else Option.none

/-- The digits of a number in a base, onto an accumulator. -/
def readDigits (base : Nat) : List Char → Nat → Option Nat
  | [], acc => some acc
  | ch :: rest, acc =>
      match digitValue ch with
      | some d => if d < base then readDigits base rest (acc * base + d) else Option.none
      | Option.none => Option.none

/-- A number, decimal or `0x` hexadecimal (R75). -/
def readNumber : List Char → Option Nat
  | [] => Option.none
  | '0' :: 'x' :: d :: rest => readDigits 16 (d :: rest) 0
  | d :: rest => readDigits 10 (d :: rest) 0

/-- A number as a 1-bit operand. -/
def asBit (n : Nat) : Option Bool := if n < 2 then some (n == 1) else Option.none

/-- A number as an operand of `len` bits; a number that does not fit is refused. -/
def asField (len n : Nat) : Option (BitVec len) := if n < 2 ^ len then some (BitVec.ofNat len n) else Option.none

/-- The command a line stands for, if it is of a form of R75. -/
def assemble (l : AsmLine) : Option Instr :=
  match l.operands with
  | [] =>
      if l.mnemonic = "I2C_INIT" then some .i2cInit
      else if l.mnemonic = "I2C_START" then some .i2cStart
      else if l.mnemonic = "I2C_STOP" then some .i2cStop
      else if l.mnemonic = "SPI_SELECT" then some .spiSelect
      else if l.mnemonic = "SPI_WRITE_ENABLE" then some .spiWriteEnable
      else if l.mnemonic = "SPI_WRITE_DISABLE" then some .spiWriteDisable
      else if l.mnemonic = "I2C_ACK" then some (.i2cSendBit false)
      else Option.none
  | [.name t] =>
      if l.mnemonic = "SPI_DESELECT" then
        if t = "SHORT" then some (.spiDeselect .short)
        else if t = "LONG" then some (.spiDeselect .long)
        else Option.none
      else if l.mnemonic = "SET_FAMILY" then
        if t = "I2C" then some (.setFamily .i2c)
        else if t = "FOURWIRE" then some (.setFamily .fourwire)
        else Option.none
      else Option.none
  | [.number n] =>
      if l.mnemonic = "I2C_SEND_BIT" then (asBit n).map .i2cSendBit
      else if l.mnemonic = "I2C_SEND_BYTE" then (asField 8 n).map .i2cSendByte
      else if l.mnemonic = "SPI_FIELD3" then (asField 16 n).map (.spiSendField 3#5)
      else if l.mnemonic = "SPI_FIELD6" then (asField 16 n).map (.spiSendField 6#5)
      else if l.mnemonic = "SPI_FIELD16" then (asField 16 n).map (.spiSendField 16#5)
      else Option.none
  | [.number m, .number n] =>
      if l.mnemonic = "I2C_WRITE" then (asField 8 m).bind fun a => (asField 8 n).map (.i2cWrite a)
      else if l.mnemonic = "SPI_SEND_FIELD" then (asField 5 m).bind fun a => (asField 16 n).map (.spiSendField a)
      else if l.mnemonic = "SPI_WRITE" then (asField 6 m).bind fun a => (asField 16 n).map (.spiWrite a)
      else if l.mnemonic = "PROGRAM" then (asField 8 m).bind fun a => (asField 16 n).map (.program a)
      else Option.none
  | [.number k, .number m, .number n] =>
      if l.mnemonic = "SET_LINES" then
        (asBit k).bind fun a => (asBit m).bind fun b => (asBit n).map (.setLines a b)
      else Option.none
  | _ => Option.none

/-- The line that writes a command (R75). -/
def disassemble : Instr → AsmLine
  | .setLines cs clk dataOut => ⟨"SET_LINES", [.number cs.toNat, .number clk.toNat, .number dataOut.toNat]⟩
  | .i2cInit => ⟨"I2C_INIT", []⟩
  | .i2cStart => ⟨"I2C_START", []⟩
  | .i2cSendBit v => ⟨"I2C_SEND_BIT", [.number v.toNat]⟩
  | .i2cSendByte b => ⟨"I2C_SEND_BYTE", [.number b.toNat]⟩
  | .i2cStop => ⟨"I2C_STOP", []⟩
  | .i2cWrite addr val => ⟨"I2C_WRITE", [.number addr.toNat, .number val.toNat]⟩
  | .spiSelect => ⟨"SPI_SELECT", []⟩
  | .spiSendField width value => ⟨"SPI_SEND_FIELD", [.number width.toNat, .number value.toNat]⟩
  | .spiDeselect .short => ⟨"SPI_DESELECT", [.name "SHORT"]⟩
  | .spiDeselect .long => ⟨"SPI_DESELECT", [.name "LONG"]⟩
  | .spiWriteEnable => ⟨"SPI_WRITE_ENABLE", []⟩
  | .spiWrite addr data => ⟨"SPI_WRITE", [.number addr.toNat, .number data.toNat]⟩
  | .spiWriteDisable => ⟨"SPI_WRITE_DISABLE", []⟩
  | .setFamily .i2c => ⟨"SET_FAMILY", [.name "I2C"]⟩
  | .setFamily .fourwire => ⟨"SET_FAMILY", [.name "FOURWIRE"]⟩
  | .program addr value => ⟨"PROGRAM", [.number addr.toNat, .number value.toNat]⟩

end Sys2Proof.Machine
end

