-- ==== Sys2Proof/Machine/Observe.lean ====
section
/-! DEFINITION. What an observer reads from the trace (spec/00_scope.md R6, R12): the line states (spec/30_encoding.md
R60), the data at the rising clock edges (spec/41_i2c_engine.md R119, spec/42_spi4_engine.md R149), the least time a
waveform takes (spec/70_reset_and_hazards.md R250), and the level of a line (spec/10_state.md R22). The engine reads none
of this. -/

namespace Sys2Proof.Machine

/-- `LS(cs, clk, do)`, the line-state nibble with output_enable 1 (R11, R60). -/
def lineNibble (cs clk dataOut : Bool) : BitVec 4 :=
  BitVec.ofBool cs ++ BitVec.ofBool clk ++ BitVec.ofBool dataOut ++ 1#1

/-- The port word of a line-state nibble whose output_enable is 1 (R60, R61). -/
def nibbleWord (c : Configuration) (n : BitVec 4) : Word :=
  compose c (n.getLsbD 3) (n.getLsbD 2) (n.getLsbD 1)

/-- The line-state nibble that a port word shows at the four bit positions (R21, R60). -/
def lineState (c : Configuration) (w : Word) : BitVec 4 :=
  BitVec.ofBool (w.getLsbD c.board.pCs.val) ++ BitVec.ofBool (w.getLsbD c.board.pClk.val)
    ++ BitVec.ofBool (w.getLsbD c.board.pDo.val) ++ BitVec.ofBool (w.getLsbD c.board.pOe.val)

/-- The trace notation of R12: each nibble is one write, followed by the hold beside it. -/
def waveform (c : Configuration) : List (BitVec 4 × HoldName) → List Event
  | [] => []
  | (n, t) :: rest => .write c.gpioAddr (nibbleWord c n) :: .hold t :: waveform c rest

/-- The words of the writes in a trace, in order: the `W` events (R6). -/
def writtenWords : List Event → List Word
  | [] => []
  | .write _ w :: rest => w :: writtenWords rest
  | .hold _ :: rest => writtenWords rest
  | .fault _ :: rest => writtenWords rest

/-- The line states of the writes in a trace, in order (R12). -/
def lineStates (c : Configuration) (tr : List Event) : List (BitVec 4) := (writtenWords tr).map (lineState c)

/-- The data at each write that raises the clock from 0 to 1, in order (R119, R149). -/
def risingData : List (BitVec 4) → List Bool
  | a :: b :: rest =>
      (if !a.getLsbD 2 && b.getLsbD 2 then [b.getLsbD 1] else []) ++ risingData (b :: rest)
  | _ => []

/-- The data sampled at the rising clock edges of a trace (R119, R149). -/
def samples (c : Configuration) (tr : List Event) : List Bool := risingData (lineStates c tr)

/-- The data line changes only while the clock is low: wherever two line states that follow each other differ in data,
the clock is low in both (R119, R141). -/
def dataStableWhileHigh : List (BitVec 4) → Bool
  | a :: b :: rest =>
      (a.getLsbD 1 == b.getLsbD 1 || (!a.getLsbD 2 && !b.getLsbD 2)) && dataStableWhileHigh (b :: rest)
  | _ => true

/-- The least duration of a hold (R8, R250). -/
def holdMinimum (b : Board) : HoldName → Nat
  | .i2cInit => b.tI2cInit
  | .i2cFrame => b.tI2cFrame
  | .i2cBit => b.tI2cBit
  | .spiPre => b.tSpiPre
  | .spiBit => b.tSpiBit
  | .spiShort => b.tSpiShort
  | .spiLong => b.tSpiLong

/-- The least time the holds of a trace take (R241, R250). There is no upper bound. -/
def minDuration (b : Board) : List Event → Nat
  | [] => 0
  | .hold t :: rest => holdMinimum b t + minDuration b rest
  | .write _ _ :: rest => minDuration b rest
  | .fault _ :: rest => minDuration b rest

/-- A line that carries a level toward the EEPROM while output_enable is 1 (R21). -/
inductive Line where
  /-- chip_select. -/
  | chipSelect
  /-- clock. -/
  | clock
  /-- data_out. -/
  | dataOut
  deriving DecidableEq, Repr

/-- The bit position of a line (R21). -/
def linePosition (b : Board) : Line → Fin 32
  | .chipSelect => b.pCs
  | .clock => b.pClk
  | .dataOut => b.pDo

/-- The electrical level of a line: the register's bit while output_enable is 1; while it is 0 no
source defines it (R22, U4) and it is `none` (log entry 26). -/
def lineLevel (s : State) (l : Line) : Option Bool :=
  if s.lines.getLsbD s.config.board.pOe.val then some (s.lines.getLsbD (linePosition s.config.board l).val)
  else Option.none

end Sys2Proof.Machine
end

