-- ==== Sys2Proof/Machine/HostPort.lean ====
section
/-! DEFINITION. What the agents around the engine do at its boundary (spec/00_scope.md R7): the Device Access Layer's read
of the register (spec/10_state.md R29, R33), the family it passes to `SET_FAMILY` (spec/43_selection_glue.md R170), and
setting the machine up with its parameters (spec/70_reset_and_hazards.md R233). None of this is a command: the engine
reads nothing (spec/20_memory.md R43). -/

namespace Sys2Proof.Machine

/-- `w` with its bit at position `p` set to `b`. -/
def setBit (w : Word) (p : Fin 32) (b : Bool) : Word := (w &&& ~~~lineAt true p) ||| lineAt b p

/-- A read of the GPIO control register by the host (R33): the family status bit at `P_FAM` while the engine has written
nothing since the machine was set up, across resets too (R29, R230, R247), and a draw at every other bit (log entries 8
and 19). -/
def readRegister (s : State) : Word × State :=
  let drawn := Config.drawReadback s.draws
  let value := if s.registerWritten then drawn else setBit drawn s.config.board.pFam s.familyBit
  (value, { s with draws := s.draws + 1 })

/-- The family that a value of the register means: the status bit equal to `FAM_POL` means the 4-wire family (R29). -/
def familyOfRegister (b : Board) (w : Word) : Family :=
  if w.getLsbD b.pFam.val = b.famPol then .fourwire else .i2c

/-- Set the machine up with the given parameters (R233, step 2): the state after reset, or a refusal of the configuration
as a whole, before any command runs (R46, U12). -/
def powerOn (d : Defaults) (b : Board) : Host.Outcome State Fault Refusal :=
  if h : legalParameters d b = true then .next { State.reset with config := ⟨d, b, h⟩ }
  else .refused .illegalConfiguration

end Sys2Proof.Machine
end

