-- ==== Sys2Proof/Safety.lean ====
section
/-! DEFINITION. The terms claims are stated in: how a run ends (spec/70_reset_and_hazards.md R249), the state a command
accepts and leaves (spec/10_state.md R25), the invariant of the machine, and the obligations of the host's command stream,
which the engine does not check and a claim takes as premises (spec/70_reset_and_hazards.md, opening; R233, R243 to
R246). -/

namespace Sys2Proof.Safety

open Sys2Proof.Machine

/-! ## Running commands one after another -/

/-- The engine has recorded no fault. -/
abbrev Running (s : State) : Prop := s.fault.code = 0#3

/-- Execute the commands of a list one after another, stopping at the first that does not answer a next state (R201). -/
def execAll : List Instr → State → Host.Outcome State Fault Refusal
  | [], s => .next s
  | i :: rest, s =>
      match exec i s with
      | .next t => execAll rest t
      | .fault r => .fault r
      | .refused r => .refused r

/-! ## The end of a run -/

/-- The host has issued no further command, or the engine is halted (R249; log entry 24). -/
def runEnded (s : State) : Bool := s.fetch.isNone || s.halted

/-- A run ends well: no fault and no open session (R249). -/
def goodEnd (s : State) : Bool := runEnded s && !s.halted && decide (s.session = .none)

/-- A faulted end (R209, R249). -/
def faultedEnd (s : State) : Bool := s.halted

/-- An incomplete session: the run ends with a session open, by a fault or without one (R242, R249). -/
def incompleteSession (s : State) : Bool := runEnded s && decide (s.session ≠ .none)

/-- A run ends badly: a faulted end, an incomplete session, or both (R249). -/
def badEnd (s : State) : Bool := faultedEnd s || incompleteSession s

/-! ## The sequencing of commands -/

/-- The SESSION a command accepts (R25). -/
def acceptedSession : Instr → Session
  | .setLines _ _ _ => .none
  | .i2cInit => .none
  | .i2cStart => .i2cReady
  | .i2cSendBit _ => .i2cStarted
  | .i2cSendByte _ => .i2cStarted
  | .i2cStop => .i2cStarted
  | .i2cWrite _ _ => .none
  | .spiSelect => .none
  | .spiSendField _ _ => .spiSelected
  | .spiDeselect _ => .spiSelected
  | .spiWriteEnable => .none
  | .spiWrite _ _ => .none
  | .spiWriteDisable => .none
  | .setFamily _ => .none
  | .program _ _ => .none

/-- The SESSION a command leaves when it completes (R25). -/
def resultSession : Instr → Session
  | .setLines _ _ _ => .none
  | .i2cInit => .i2cReady
  | .i2cStart => .i2cStarted
  | .i2cSendBit _ => .i2cStarted
  | .i2cSendByte _ => .i2cStarted
  | .i2cStop => .none
  | .i2cWrite _ _ => .none
  | .spiSelect => .spiSelected
  | .spiSendField _ _ => .spiSelected
  | .spiDeselect _ => .none
  | .spiWriteEnable => .none
  | .spiWrite _ _ => .none
  | .spiWriteDisable => .none
  | .setFamily _ => .none
  | .program _ _ => .none

/-- A command runs under the FAMILY latch: its engine is the latched one (R172, R204). -/
def familyAdmits : Instr → Option Family → Bool
  | .setLines _ _ _, _ => true
  | .setFamily _, _ => true
  | .program _ _, latch => latch.isSome
  | .i2cInit, latch => decide (latch = some .i2c)
  | .i2cStart, latch => decide (latch = some .i2c)
  | .i2cSendBit _, latch => decide (latch = some .i2c)
  | .i2cSendByte _, latch => decide (latch = some .i2c)
  | .i2cStop, latch => decide (latch = some .i2c)
  | .i2cWrite _ _, latch => decide (latch = some .i2c)
  | .spiSelect, latch => decide (latch = some .fourwire)
  | .spiSendField _ _, latch => decide (latch = some .fourwire)
  | .spiDeselect _, latch => decide (latch = some .fourwire)
  | .spiWriteEnable, latch => decide (latch = some .fourwire)
  | .spiWrite _ _, latch => decide (latch = some .fourwire)
  | .spiWriteDisable, latch => decide (latch = some .fourwire)

/-! ## The invariant -/

/-- An `F` event. -/
def isFault : Event → Bool
  | .write _ _ => false
  | .hold _ => false
  | .fault _ => true

/-- What is true of every state the machine reaches. -/
structure Consistent (s : State) : Prop where
  /-- Codes 5 to 7 are never produced (R202). -/
  codeKnown : s.fault.code.toNat ≤ 4
  /-- Every write goes to `GPIO_ADDR` and writes one of the eight line states with output_enable 1 (R52, R62). -/
  writesComposed : ∀ a w, .write a w ∈ s.trace →
    a = s.gpioAddr ∧ ∃ cs clk dataOut, w = compose s.config cs clk dataOut
  /-- Until the port bus fails a write, LINES is the value last written, if a write has been made (R21, R42, R205). -/
  linesLastWritten : s.fault.code ≠ 4#3 → ∀ w, (writtenWords s.trace).getLast? = some w → s.lines = w
  /-- The trace holds an `F` event exactly when a fault is recorded: that one code, once (R207, R209). -/
  oneFault : s.trace.filter isFault = if s.halted then [.fault s.fault.code] else []
  /-- A fault ends the trace (R207, R209). -/
  faultLast : ¬ Running s → s.trace.getLast? = some (.fault s.fault.code)
  /-- The record names the `pc`, which a faulting command leaves unchanged, and the command there (R26, R27, R207). -/
  faultRecorded : ¬ Running s → s.fault.pc = s.pc ∧ s.fetch = some s.fault.cmd
  /-- An open two-wire session runs under the two-wire family (R25, R172). -/
  twoWireSession : s.session = .i2cReady ∨ s.session = .i2cStarted → s.family = some .i2c
  /-- An open 4-wire session runs under the 4-wire family (R25, R172). -/
  fourWireSession : s.session = .spiSelected → s.family = some .fourwire
  /-- A write in the trace, or one the port bus failed, is remembered, for R29 and R247. The field is the model's own, and
  that a failed write counts is its choice (DESIGN CHOICE; log entries 19 and 29). -/
  writesNoted : writtenWords s.trace ≠ [] ∨ s.fault.code = 4#3 → s.registerWritten = true
  /-- The commands before `pc` have been issued (R27). -/
  pcIssued : s.pc ≤ s.commands.length

/-! ## Waveforms as the spec draws them

Lists of line-state nibbles, each with the hold beside it (spec/00_scope.md R12), written here from the frames of
spec/30_encoding.md and not from the line changes the commands are made of. -/

/-- A bit: three writes with the same data and the clock low, high, low (R63, R67). -/
def pulseShape (cs : Bool) (t : HoldName) (v : Bool) : List (BitVec 4 × HoldName) :=
  [(lineNibble cs false v, t), (lineNibble cs true v, t), (lineNibble cs false v, t)]

/-- The bits `width - 1` down to 0 of a value (R64, R67, R149). -/
def msbFirst (width : Nat) (bit : Nat → Bool) : List Bool :=
  (List.range width).map fun k => bit (width - 1 - k)

/-- A field of bits (R64, R67). -/
def fieldShape (cs : Bool) (t : HoldName) (width : Nat) (bit : Nat → Bool) : List (BitVec 4 × HoldName) :=
  (msbFirst width bit).flatMap (pulseShape cs t)

/-- A byte frame: eight bits and the acknowledge slot, 27 writes (R64). -/
def byteShape (d : Defaults) (b : Byte) : List (BitVec 4 × HoldName) :=
  fieldShape d.i2cBitCs .i2cBit 8 b.getLsbD ++ pulseShape d.i2cBitCs .i2cBit false

/-- A two-wire transaction: `9 F`, `D 9`, three byte frames, `9 D F` (R65). -/
def transactionShape (d : Defaults) (addr val : Byte) : List (BitVec 4 × HoldName) :=
  [(0x9#4, .i2cInit), (0xF#4, .i2cInit), (0xD#4, .i2cFrame), (0x9#4, .i2cFrame)]
    ++ byteShape d d.devSel ++ byteShape d addr ++ byteShape d val
    ++ [(0x9#4, .i2cFrame), (0xD#4, .i2cFrame), (0xF#4, .i2cFrame)]

/-- A 4-wire command: `1 9`, the 25 bits of `FRAME = {opc, addr, data}`, `1` and the pause (R68, R140). -/
def frameShape (opc : BitVec 3) (addr : BitVec 6) (data : BitVec 16) (pause : HoldName) :
    List (BitVec 4 × HoldName) :=
  [(0x1#4, .spiPre), (0x9#4, .spiBit)] ++ fieldShape true .spiBit 25 (opc ++ addr ++ data).getLsbD
    ++ [(0x1#4, pause)]

/-- The Write-Enable, Write and Write-Disable waveforms (R69, R144 to R146). -/
def writeEnableShape (d : Defaults) : List (BitVec 4 × HoldName) :=
  frameShape d.spiOpcWen d.spiAddrWen d.spiDataWen .spiShort

/-- See `writeEnableShape`. -/
def writeShape (d : Defaults) (addr : BitVec 6) (data : BitVec 16) : List (BitVec 4 × HoldName) :=
  frameShape d.spiOpcWrite addr data .spiLong

/-- See `writeEnableShape`. -/
def writeDisableShape (d : Defaults) : List (BitVec 4 × HoldName) :=
  frameShape d.spiOpcWds d.spiAddrWds d.spiDataWds .spiShort

/-- The state after a command has completed with a waveform whose last nibble is `last`: the trace has the waveform's
events at its end, LINES holds the last word, SESSION is `after`, `pc` is one more, and the port bus has given one answer
for each write, so that the register has been written. EVERYTHING ELSE IS AS IT WAS: the parameters, the command stream, the family status bit, FAMILY and
FAULT. -/
def completedWith (s : State) (shape : List (BitVec 4 × HoldName)) (last : BitVec 4) (after : Session) : State :=
  { s.spent shape.length with
    lines := nibbleWord s.config last
    session := after
    trace := s.trace ++ waveform s.config shape
    pc := s.pc + 1 }

/-! ## Illegal words -/

/-- The rows of R71: match and mask, in the order of spec/opcode_table.json. -/
def opcodeRows : List (Word × Word) :=
  [(0x10000000#32, 0xFFFFFFF8#32), (0x20000000#32, 0xFFFFFFFF#32), (0x30000000#32, 0xFFFFFFFF#32),
    (0x40000000#32, 0xFFFFFFFE#32), (0x50000000#32, 0xFFFFFF00#32), (0x60000000#32, 0xFFFFFFFF#32),
    (0x70000000#32, 0xFFFF0000#32), (0x80000000#32, 0xFFFFFFFF#32), (0x90000000#32, 0xFFE00000#32),
    (0xA0000000#32, 0xFFFFFFFE#32), (0xB0000000#32, 0xFFFFFFFF#32), (0xC0000000#32, 0xFFC00000#32),
    (0xD0000000#32, 0xFFFFFFFF#32), (0xE0000000#32, 0xFFFFFFFE#32), (0xF0000000#32, 0xFF000000#32)]

/-- A word is illegal (R73): `OP = 0`; or it matches no row, a reserved bit being 1; or it is an `SPI_SEND_FIELD` whose
width is 0 or above 16, or whose value does not fit its width. -/
def illegalWord (w : Word) : Bool :=
  decide (w.extractLsb' 28 4 = 0x0#4)
    || opcodeRows.all (fun row => decide (w &&& row.2 ≠ row.1))
    || (decide (w.extractLsb' 28 4 = 0x9#4)
      && (decide ((w.extractLsb' 16 5).toNat = 0) || decide (16 < (w.extractLsb' 16 5).toNat)))
    || (decide (w.extractLsb' 28 4 = 0x9#4)
      && decide (1 ≤ (w.extractLsb' 16 5).toNat) && decide ((w.extractLsb' 16 5).toNat ≤ 16)
      && decide (2 ^ (w.extractLsb' 16 5).toNat ≤ (w.extractLsb' 0 16).toNat))

/-! ## Obligations of the host's command stream -/

/-- Only `SET_LINES` comes before `SET_FAMILY` (R233). -/
def bootOrder : List Instr → Bool
  | [] => true
  | .setLines _ _ _ :: rest => bootOrder rest
  | .setFamily _ :: _ => true
  | _ :: _ => false

/-- A session built from primitive commands, as it was closed: the bits it clocked out. -/
inductive ClosedSession where
  /-- From `I2C_START` to `I2C_STOP`. -/
  | twoWire (bits : List Bool)
  /-- From `SPI_SELECT` to `SPI_DESELECT`. -/
  | fourWire (bits : List Bool) (pause : Pause)
  deriving DecidableEq, Repr

/-- The primitive sessions a command stream closes, in order; `bits` are those clocked out since the last opening
(log entry 20). -/
def closedSessions (bits : List Bool) : List Instr → List ClosedSession
  | [] => []
  | .i2cStart :: rest => closedSessions [] rest
  | .i2cSendBit v :: rest => closedSessions (bits ++ [v]) rest
  | .i2cSendByte b :: rest => closedSessions (bits ++ bitsMsbFirst b 8 ++ [false]) rest
  | .i2cStop :: rest => .twoWire bits :: closedSessions [] rest
  | .spiSelect :: rest => closedSessions [] rest
  | .spiSendField width value :: rest => closedSessions (bits ++ bitsMsbFirst value width.toNat) rest
  | .spiDeselect pause :: rest => .fourWire bits pause :: closedSessions [] rest
  | _ :: rest => closedSessions bits rest

/-- Every bit of a session was clocked before it was closed: three bytes with their acknowledge slots, or the three
fields of a 4-wire frame (R65, R68, R243; log entry 20). -/
def everyBitClocked : ClosedSession → Bool
  | .twoWire bits => decide (bits.length = 27)
  | .fourWire bits _ => decide (bits.length = 25)

/-- What a 4-wire frame is, read from the bits that were clocked (R68, R69). -/
inductive FrameKind where
  /-- The Write-Enable frame. -/
  | writeEnable
  /-- A Write frame, whatever its address and data. -/
  | write
  /-- The Write-Disable frame, where it differs from the Write-Enable frame (R147). -/
  | writeDisable
  /-- No frame of R69. -/
  | other
  deriving DecidableEq, Repr

/-- The bits of `FRAME = {opc, addr, data}`, `FRAME[24]` first (R68). -/
def frameBits (opc : BitVec 3) (addr : BitVec 6) (data : BitVec 16) : List Bool :=
  bitsMsbFirst (opc ++ addr ++ data) 25

/-- The frame that the bits of a session form (R69; log entries 21 and 22). -/
def frameKind (d : Defaults) (bits : List Bool) : FrameKind :=
  if bits.length = 25 ∧ bits.take 3 = bitsMsbFirst d.spiOpcWrite 3 then .write
  else if bits = frameBits d.spiOpcWen d.spiAddrWen d.spiDataWen then .writeEnable
  else if bits = frameBits d.spiOpcWds d.spiAddrWds d.spiDataWds then .writeDisable
  else .other

/-- A session that sends a Write frame is closed with the long pause (R69, R244; log entry 21). -/
def longPauseAfterWrite (d : Defaults) : ClosedSession → Bool
  | .twoWire _ => true
  | .fourWire bits pause => decide (frameKind d bits ≠ .write) || decide (pause = .long)

/-- The 4-wire frames a command stream sends, in order: those of the composite commands, and those it builds from
primitive commands and closes (R76); `bits` are those clocked out since the last `SPI_SELECT`. -/
def framesSent (d : Defaults) (bits : List Bool) : List Instr → List FrameKind
  | [] => []
  | .spiSelect :: rest => framesSent d [] rest
  | .spiSendField width value :: rest => framesSent d (bits ++ bitsMsbFirst value width.toNat) rest
  | .spiDeselect _ :: rest => frameKind d bits :: framesSent d [] rest
  | .spiWriteEnable :: rest => .writeEnable :: framesSent d bits rest
  | .spiWrite _ _ :: rest => .write :: framesSent d bits rest
  | .spiWriteDisable :: rest => .writeDisable :: framesSent d bits rest
  | .program _ _ :: rest => .writeEnable :: .write :: .writeDisable :: framesSent d bits rest
  | _ :: rest => framesSent d bits rest

/-- Every Write frame comes after a Write-Enable frame with no Write-Disable frame between; the flag says that
Write-Enable was sent last (R245; log entry 22). -/
def writesEnabled (enabled : Bool) : List FrameKind → Bool
  | [] => true
  | .writeEnable :: rest => writesEnabled true rest
  | .write :: rest => enabled && writesEnabled enabled rest
  | .writeDisable :: rest => writesEnabled false rest
  | .other :: rest => writesEnabled enabled rest

/-- Write-Enable comes before every Write of a command stream, composite or built from primitive commands (R245). -/
def writeEnabledFirst (d : Defaults) (commands : List Instr) : Bool :=
  writesEnabled false (framesSent d [] commands)

/-- The least time the host lets pass after a command before it starts another session (R246; log entry 23). -/
def owedWait (b : Board) (latch : Option Family) : Instr → Nat
  | .i2cWrite _ _ => b.tI2cWr
  | .i2cStop => b.tI2cWr
  | .program _ _ => if latch = some .i2c then b.tI2cWr else 0
  | _ => 0

/-- The obligations of a command stream that can be read from the stream alone (R233, R243, R244, R245). -/
def streamRespected (d : Defaults) (commands : List Instr) : Bool :=
  bootOrder commands
    && (closedSessions [] commands).all everyBitClocked
    && (closedSessions [] commands).all (longPauseAfterWrite d)
    && writeEnabledFirst d commands

end Sys2Proof.Safety
end

