-- ==== Sys2Proof/Certificates/Slice0/Obligations.lean ====
section
/-! DEFINITION. The statements for the provers. A `stated` one formalises the rule its docstring names first; a `derived`
one rests on the sections named. -/

open Sys2Proof Sys2Proof.Machine Sys2Proof.Safety

/-- Decoding an encoded well-formed command gives it back. Rests on 30_encoding.md section 4 (VTCORE-CMD). -/
def Obligations.DecodeInvertsEncode : Prop :=
  ∀ i : Instr, i.wellFormed = true → decode (encode i) = .ok i

/-- A word that decodes is the encoding of its command, and that command is well-formed. Rests on 30_encoding.md
section 4 (VTCORE-CMD). -/
def Obligations.EncodeInvertsDecode : Prop :=
  ∀ (w : Word) (i : Instr), decode w = .ok i → i.wellFormed = true ∧ encode i = w

/-- A word that matches a row of the opcode table is that command, with its operand fields. Formalises R71. -/
def Obligations.MatchingWordsDecodeToTheirRow : Prop :=
  ∀ w : Word,
    (w &&& 0xF0000000#32 = 0x00000000#32 → decode w = .error .reservedOpcode) ∧
    (w &&& 0xFFFFFFF8#32 = 0x10000000#32 →
      decode w = .ok (.setLines (w.getLsbD 2) (w.getLsbD 1) (w.getLsbD 0))) ∧
    (w &&& 0xFFFFFFFF#32 = 0x20000000#32 → decode w = .ok .i2cInit) ∧
    (w &&& 0xFFFFFFFF#32 = 0x30000000#32 → decode w = .ok .i2cStart) ∧
    (w &&& 0xFFFFFFFE#32 = 0x40000000#32 → decode w = .ok (.i2cSendBit (w.getLsbD 0))) ∧
    (w &&& 0xFFFFFF00#32 = 0x50000000#32 → decode w = .ok (.i2cSendByte (w.extractLsb' 0 8))) ∧
    (w &&& 0xFFFFFFFF#32 = 0x60000000#32 → decode w = .ok .i2cStop) ∧
    (w &&& 0xFFFF0000#32 = 0x70000000#32 →
      decode w = .ok (.i2cWrite (w.extractLsb' 8 8) (w.extractLsb' 0 8))) ∧
    (w &&& 0xFFFFFFFF#32 = 0x80000000#32 → decode w = .ok .spiSelect) ∧
    (w &&& 0xFFE00000#32 = 0x90000000#32 →
      1 ≤ (w.extractLsb' 16 5).toNat → (w.extractLsb' 16 5).toNat ≤ 16 →
      (w.extractLsb' 0 16).toNat < 2 ^ (w.extractLsb' 16 5).toNat →
      decode w = .ok (.spiSendField (w.extractLsb' 16 5) (w.extractLsb' 0 16))) ∧
    (w &&& 0xFFFFFFFE#32 = 0xA0000000#32 →
      decode w = .ok (.spiDeselect (if w.getLsbD 0 then .long else .short))) ∧
    (w &&& 0xFFFFFFFF#32 = 0xB0000000#32 → decode w = .ok .spiWriteEnable) ∧
    (w &&& 0xFFC00000#32 = 0xC0000000#32 →
      decode w = .ok (.spiWrite (w.extractLsb' 16 6) (w.extractLsb' 0 16))) ∧
    (w &&& 0xFFFFFFFF#32 = 0xD0000000#32 → decode w = .ok .spiWriteDisable) ∧
    (w &&& 0xFFFFFFFE#32 = 0xE0000000#32 →
      decode w = .ok (.setFamily (if w.getLsbD 0 then .fourwire else .i2c))) ∧
    (w &&& 0xFF000000#32 = 0xF0000000#32 →
      decode w = .ok (.program (w.extractLsb' 16 8) (w.extractLsb' 0 16)))

/-- Exactly the words R73 names are illegal, and executing one raises IllegalCommand with no write. Formalises R73.
-/
def Obligations.IllegalWordsRaiseIllegalCommand : Prop :=
  (∀ w : Word, illegalWord w = false ↔ ∃ i, decode w = .ok i) ∧
    ∀ (s : State) (w : Word), Running s → s.fetch = some w → illegalWord w = true →
      step s = .next { s with
        fault := { code := 1#3, pc := s.pc, cmd := w }
        trace := s.trace ++ [.fault 1#3] }

/-- Seven words of the spec, written out from the encoding, decode as it says. Rests on 95_test_vectors.md section
2. -/
def Obligations.KnownWordsDecode : Prop :=
  decode 0x10000005#32 = .ok (.setLines true false true) ∧
    decode 0x70005AC3#32 = .ok (.i2cWrite 0x5A#8 0xC3#8) ∧
    decode 0xC02A1234#32 = .ok (.spiWrite 0x2A#6 0x1234#16) ∧
    decode 0xF05A00C3#32 = .ok (.program 0x5A#8 0x00C3#16) ∧
    decode 0x00000000#32 = .error .reservedOpcode ∧
    decode 0xC0400000#32 = .error .reservedBits ∧
    decode 0x90110000#32 = .error .fieldWidth

/-- Assembling the written form of a command gives the command back. Rests on 30_encoding.md section 4 (assembler
syntax), notes/assumptions/25.md. The model's choice (log entry 25): a line is taken after it has been split and its
numbers read, and a field value that fits 16 bits assembles even where it does not fit the field's width; its word
is then illegal when executed. -/
def Obligations.AssemblerInvertsDisassembler : Prop :=
  (∀ i : Instr, assemble (disassemble i) = some i) ∧
    assemble ⟨"I2C_ACK", []⟩ = some (.i2cSendBit false) ∧
    (∀ v : BitVec 16,
      assemble ⟨"SPI_FIELD3", [.number v.toNat]⟩ = some (.spiSendField 3#5 v) ∧
      assemble ⟨"SPI_FIELD6", [.number v.toNat]⟩ = some (.spiSendField 6#5 v) ∧
      assemble ⟨"SPI_FIELD16", [.number v.toNat]⟩ = some (.spiSendField 16#5 v))

/-- After reset: FAMILY UNSET, SESSION NONE, no fault, pc 0, empty trace. Rests on 10_state.md section 3 (reset
values), 70_reset_and_hazards.md section 1. -/
def Obligations.ResetClearsTheEngine : Prop :=
  State.reset.family = Option.none ∧ State.reset.session = .none ∧ State.reset.fault.code = 0#3 ∧
    State.reset.pc = 0 ∧ State.reset.trace = []

/-- The invariant of the machine holds after reset. Rests on 10_state.md section 3 (reset values),
notes/assumptions/19.md, notes/assumptions/29.md. The model's choices: the invariant's clause
Consistent.writesNoted, on a field of the model's own that is false after reset (log entry 29) and for which a
failed write counts as a write (log entry 19). -/
def Obligations.ResetIsConsistent : Prop :=
  Consistent State.reset

/-- Every step keeps the invariant of the machine. Rests on 10_state.md, 20_memory.md, 60_exceptions.md section 3,
notes/assumptions/19.md, notes/assumptions/29.md. The model's choices: the clause Consistent.writesNoted, on a field
of the model's own (log entry 29), for which a write that the port bus failed counts as a write (log entry 19). -/
def Obligations.StepKeepsConsistent : Prop :=
  ∀ s t : State, Consistent s → step s = .next t → Consistent t

/-- A step executes the command the word at pc decodes to. Rests on 60_exceptions.md section 1. -/
def Obligations.StepExecutesTheDecodedCommand : Prop :=
  ∀ (s : State) (w : Word) (i : Instr), Running s → s.fetch = some w → decode w = .ok i → step s = exec i s

/-- Without a command at pc the engine waits and nothing changes. Rests on 70_reset_and_hazards.md section 1,
notes/assumptions/10.md. -/
def Obligations.EngineWaitsForACommand : Prop :=
  ∀ s : State, Running s → s.fetch = Option.none → step s = .next s

/-- After a fault neither a step nor a command answers a next state; reset clears the fault. Rests on
60_exceptions.md sections 1 and 3, 70_reset_and_hazards.md section 1, 10_state.md section 3 (reset values),
notes/assumptions/3.md, notes/assumptions/13.md. The model's readings: that the step a halted engine does not take
is an outcome named halted (log entry 3), and that reset starts a new command stream (log entry 13). -/
def Obligations.HaltedEngineTakesNoCommand : Prop :=
  ∀ s : State, ¬ Running s →
    step s = .fault .halted ∧ (∀ i : Instr, exec i s = .fault .halted) ∧
    ∀ commands : List Word,
      (resetEngine commands s).fault.code = 0#3 ∧ (resetEngine commands s).family = Option.none ∧
      (resetEngine commands s).session = .none ∧ (resetEngine commands s).pc = 0 ∧
      (resetEngine commands s).trace = []

/-- An engine that is not halted always takes a step, and every command answers a next state. Rests on
60_exceptions.md section 1, notes/assumptions/3.md, notes/assumptions/10.md, notes/assumptions/15.md. The model's
choices: a fault is a next state (log entry 3), an engine without a command at pc takes a step that changes nothing
(log entry 10), and a term that no word decodes to raises IllegalCommand (log entry 15). -/
def Obligations.EveryRunningStepAnswersANextState : Prop :=
  ∀ s : State, Running s → (∃ t, step s = .next t) ∧ ∀ i : Instr, ∃ t, exec i s = .next t

/-- SET_LINES: one write of the composed word, no hold. Rests on 40_gpio_line_driver.md. -/
def Obligations.SetLinesMakesOneWrite : Prop :=
  ∀ (cs clk dataOut : Bool) (s : State), Running s → s.session = .none → s.accepts 1 →
    exec (.setLines cs clk dataOut) s = .next { s.spent 1 with
      lines := compose s.config cs clk dataOut
      trace := s.trace ++ [.write s.gpioAddr (compose s.config cs clk dataOut)]
      pc := s.pc + 1 }

/-- I2C_INIT: the writes 9 F, each held T_I2C_INIT; SESSION becomes I2C_READY. Rests on 41_i2c_engine.md. -/
def Obligations.I2cInitDrivesLowThenHigh : Prop :=
  ∀ (s : State), Running s → s.family = some .i2c → s.session = .none → s.accepts 2 →
    exec .i2cInit s = .next (completedWith s
      [(0x9#4, .i2cInit), (0xF#4, .i2cInit)]
      0xF#4 .i2cReady)

/-- I2C_START: the writes D 9, each held T_I2C_FRAME; SESSION becomes I2C_STARTED. Rests on 41_i2c_engine.md. -/
def Obligations.I2cStartLowersDataThenClock : Prop :=
  ∀ (s : State), Running s → s.family = some .i2c → s.session = .i2cReady → s.accepts 2 →
    exec .i2cStart s = .next (completedWith s
      [(0xD#4, .i2cFrame), (0x9#4, .i2cFrame)]
      0x9#4 .i2cStarted)

/-- I2C_SEND_BIT v: clock low, high, low with data v and chip-select I2C_BIT_CS. Rests on 41_i2c_engine.md. -/
def Obligations.I2cSendBitPulsesTheClock : Prop :=
  ∀ (v : Bool) (s : State), Running s → s.family = some .i2c → s.session = .i2cStarted → s.accepts 3 →
    exec (.i2cSendBit v) s = .next (completedWith s
      (pulseShape s.config.defaults.i2cBitCs .i2cBit v)
      (lineNibble s.config.defaults.i2cBitCs false v) .i2cStarted)

/-- I2C_SEND_BYTE b: the bits of b, most significant first, then the acknowledge slot: 27 writes. Rests on
41_i2c_engine.md. -/
def Obligations.I2cSendByteSendsTheByteFrame : Prop :=
  ∀ (b : Byte) (s : State), Running s → s.family = some .i2c → s.session = .i2cStarted → s.accepts 27 →
    exec (.i2cSendByte b) s = .next (completedWith s
      (byteShape s.config.defaults b)
      (lineNibble s.config.defaults.i2cBitCs false false) .i2cStarted)

/-- I2C_STOP: the writes 9 D F, each held T_I2C_FRAME; SESSION becomes NONE. Rests on 41_i2c_engine.md. -/
def Obligations.I2cStopRaisesDataWithClockHigh : Prop :=
  ∀ (s : State), Running s → s.family = some .i2c → s.session = .i2cStarted → s.accepts 3 →
    exec .i2cStop s = .next (completedWith s
      [(0x9#4, .i2cFrame), (0xD#4, .i2cFrame), (0xF#4, .i2cFrame)]
      0xF#4 .none)

/-- I2C_WRITE addr, val: Init, Start, the bytes DEV_SEL, addr, val, Stop: 88 writes. Rests on 41_i2c_engine.md. -/
def Obligations.I2cWriteSendsTheTransaction : Prop :=
  ∀ (addr val : Byte) (s : State), Running s → s.family = some .i2c → s.session = .none → s.accepts 88 →
    exec (.i2cWrite addr val) s = .next (completedWith s
      (transactionShape s.config.defaults addr val)
      0xF#4 .none)

/-- SPI_SELECT: the writes 1 9, held T_SPI_PRE and T_SPI_BIT; SESSION becomes SPI_SELECTED. Rests on
42_spi4_engine.md. -/
def Obligations.SpiSelectDeselectsThenAsserts : Prop :=
  ∀ (s : State), Running s → s.family = some .fourwire → s.session = .none → s.accepts 2 →
    exec .spiSelect s = .next (completedWith s
      [(0x1#4, .spiPre), (0x9#4, .spiBit)]
      0x9#4 .spiSelected)

/-- SPI_SEND_FIELD width, value: bits value[width-1] down to value[0]: 3 * width writes. Rests on 42_spi4_engine.md.
-/
def Obligations.SpiSendFieldSendsTheBits : Prop :=
  ∀ (width : BitVec 5) (value : BitVec 16) (s : State), Running s →
    1 ≤ width.toNat → width.toNat ≤ 16 → value.toNat < 2 ^ width.toNat →
    s.family = some .fourwire → s.session = .spiSelected → s.accepts (3 * width.toNat) →
    exec (.spiSendField width value) s = .next (completedWith s
      (fieldShape true .spiBit width.toNat value.getLsbD)
      (lineNibble true false (value.getLsbD 0)) .spiSelected)

/-- SPI_DESELECT: the write 1, held T_SPI_SHORT or T_SPI_LONG; SESSION becomes NONE. Rests on 42_spi4_engine.md. -/
def Obligations.SpiDeselectPausesShortOrLong : Prop :=
  ∀ s : State, Running s → s.family = some .fourwire → s.session = .spiSelected → s.accepts 1 →
    exec (.spiDeselect .short) s = .next (completedWith s [(0x1#4, .spiShort)] 0x1#4 .none) ∧
    exec (.spiDeselect .long) s = .next (completedWith s [(0x1#4, .spiLong)] 0x1#4 .none)

/-- SPI_WRITE_ENABLE: 1 9, the 25 bits of its frame, 1 with the short pause: 78 writes. Rests on 42_spi4_engine.md.
-/
def Obligations.SpiWriteEnableSendsItsFrame : Prop :=
  ∀ (s : State), Running s → s.family = some .fourwire → s.session = .none → s.accepts 78 →
    exec .spiWriteEnable s = .next (completedWith s
      (writeEnableShape s.config.defaults)
      0x1#4 .none)

/-- SPI_WRITE addr, data: 1 9, the 25 bits of its frame, 1 with the long pause: 78 writes. Rests on
42_spi4_engine.md. -/
def Obligations.SpiWriteSendsItsFrame : Prop :=
  ∀ (addr : BitVec 6) (data : BitVec 16) (s : State), Running s → s.family = some .fourwire → s.session = .none → s.accepts 78 →
    exec (.spiWrite addr data) s = .next (completedWith s
      (writeShape s.config.defaults addr data)
      0x1#4 .none)

/-- SPI_WRITE_DISABLE: 1 9, the 25 bits of its frame, 1 with the short pause: 78 writes. Rests on 42_spi4_engine.md.
-/
def Obligations.SpiWriteDisableSendsItsFrame : Prop :=
  ∀ (s : State), Running s → s.family = some .fourwire → s.session = .none → s.accepts 78 →
    exec .spiWriteDisable s = .next (completedWith s
      (writeDisableShape s.config.defaults)
      0x1#4 .none)

/-- SET_FAMILY: FAMILY takes the operand; no write. Rests on 43_selection_glue.md. -/
def Obligations.SetFamilyLatchesTheFamily : Prop :=
  ∀ (fam : Family) (s : State), Running s → s.family = Option.none → s.session = .none →
    exec (.setFamily fam) s = .next { s with family := some fam, pc := s.pc + 1 }

/-- PROGRAM under I2C: the 88 writes of I2C_WRITE addr, value[7:0]. Rests on 43_selection_glue.md. -/
def Obligations.ProgramOnTwoWireSendsTheTransaction : Prop :=
  ∀ (addr : Byte) (value : BitVec 16) (s : State), Running s → s.family = some .i2c → s.session = .none →
    value.toNat < 256 → s.accepts 88 →
    exec (.program addr value) s = .next (completedWith s
      (transactionShape s.config.defaults addr (value.extractLsb' 0 8))
      0xF#4 .none)

/-- PROGRAM under FOURWIRE: Write-Enable, Write, Write-Disable: 234 writes. Rests on 43_selection_glue.md. -/
def Obligations.ProgramOnFourWireSendsThreeFrames : Prop :=
  ∀ (addr : Byte) (value : BitVec 16) (s : State), Running s → s.family = some .fourwire → s.session = .none →
    addr.toNat < 64 → s.accepts 234 →
    exec (.program addr value) s = .next (completedWith s
      (writeEnableShape s.config.defaults ++ writeShape s.config.defaults (addr.extractLsb' 0 6) value
        ++ writeDisableShape s.config.defaults)
      0x1#4 .none)

/-- A command under the wrong family raises FamilyError before any write. Formalises R204. -/
def Obligations.WrongFamilyRaisesFamilyError : Prop :=
  ∀ (i : Instr) (s : State), Running s → i.wellFormed = true → familyAdmits i s.family = false →
    exec i s = .next { s with
      fault := { code := 3#3, pc := s.pc, cmd := encode i }
      trace := s.trace ++ [.fault 3#3] }

/-- A command in a SESSION it does not accept, or a second SET_FAMILY, raises SequenceError before any write.
Formalises R206. -/
def Obligations.WrongSessionRaisesSequenceError : Prop :=
  ∀ (i : Instr) (s : State), Running s → i.wellFormed = true → familyAdmits i s.family = true →
    (s.session ≠ acceptedSession i ∨ ∃ fam, i = .setFamily fam ∧ s.family ≠ Option.none) →
    exec i s = .next { s with
      fault := { code := 2#3, pc := s.pc, cmd := encode i }
      trace := s.trace ++ [.fault 2#3] }

/-- PROGRAM with an operand the latched family cannot send raises IllegalCommand before any write. Rests on
43_selection_glue.md, 60_exceptions.md section 2. -/
def Obligations.ProgramOutOfRangeRaisesIllegalCommand : Prop :=
  ∀ (addr : Byte) (value : BitVec 16) (s : State), Running s → s.session = .none →
    ((s.family = some .i2c ∧ 256 ≤ value.toNat) ∨ (s.family = some .fourwire ∧ 64 ≤ addr.toNat)) →
    exec (.program addr value) s = .next { s with
      fault := { code := 1#3, pc := s.pc, cmd := encode (.program addr value) }
      trace := s.trace ++ [.fault 1#3] }

/-- What taking a fault records, and what a faulting command leaves. Rests on 60_exceptions.md sections 2 and 3,
notes/assumptions/3.md, notes/assumptions/5.md, notes/assumptions/7.md, notes/assumptions/14.md,
notes/assumptions/15.md, notes/assumptions/19.md, notes/assumptions/29.md. The model's choices: taking a fault is a
next state (log entry 3), the answers of the port bus are the list and the free values of log entry 5, the counter
of draws is that of log entry 7, FAULT.CMD is the encoding of the command (log entry 14), a term that no word
decodes to raises IllegalCommand (log entry 15), and the note that the register has been written is a field of the
model's own (log entry 29), which a failed write sets (log entry 19). -/
def Obligations.FaultsArePrecise : Prop :=
  ∀ (i : Instr) (s t : State), Running s → exec i s = .next t → ¬ Running t →
    t.fault = { code := t.fault.code, pc := s.pc, cmd := encode i } ∧
    t.pc = s.pc ∧ t.session = s.session ∧ t.family = s.family ∧ t.familyBit = s.familyBit ∧
    t.config = s.config ∧ t.commands = s.commands ∧
    (∃ events, t.trace = s.trace ++ events ++ [.fault t.fault.code] ∧
      events.all (fun e => !isFault e) = true ∧ (t.fault.code ≠ 4#3 → events = []) ∧
      (t.fault.code = 4#3 →
        s.accepts (writtenWords events).length ∧ s.answer (writtenWords events).length = .failed ∧
        t.bus = (s.spent ((writtenWords events).length + 1)).bus ∧
        t.draws = (s.spent ((writtenWords events).length + 1)).draws + 1 ∧ t.registerWritten = true)) ∧
    (t.fault.code ≠ 4#3 →
      t.lines = s.lines ∧ t.bus = s.bus ∧ t.draws = s.draws ∧ t.registerWritten = s.registerWritten)

/-- A failed port write cuts the waveform at that write and records PortWriteFailure. Formalises R205. The answers
of the port bus are the list and the free values of log entry 5; LINES is the free value of log entry 6. -/
def Obligations.FailedWriteStopsTheCommand : Prop :=
  ∀ (i : Instr) (s t : State) (events : List Event) (k : Nat), Running s →
    exec i { s with bus := List.replicate 234 .accepted } = .next t → Running t →
    t.trace = s.trace ++ events →
    k < (writtenWords events).length → s.accepts k → s.answer k = .failed →
    ∃ u, exec i s = .next u ∧
      u.trace = s.trace ++ events.take (2 * k) ++ [.fault 4#3] ∧
      u.fault = { code := 4#3, pc := s.pc, cmd := encode i } ∧
      u.pc = s.pc ∧ u.session = s.session ∧ u.family = s.family ∧ u.familyBit = s.familyBit ∧
      u.config = s.config ∧ u.commands = s.commands ∧ ∃ n, u.lines = Config.drawLines n

/-- A completed command advances pc by exactly 1; a faulting one leaves it; no command transfers control. Formalises
R27. -/
def Obligations.PcAdvancesByOneOrStays : Prop :=
  State.reset.pc = 0 ∧
    ∀ (s t : State) (w : Word), s.fetch = some w → step s = .next t →
      (Running t ∧ t.pc = s.pc + 1) ∨ (¬ Running t ∧ t.pc = s.pc)

/-- Only SET_FAMILY changes FAMILY, and only from UNSET. Rests on 10_state.md section 2. -/
def Obligations.FamilyIsLatchedOnce : Prop :=
  State.reset.family = Option.none ∧
    ∀ s t : State, step s = .next t → t.family ≠ s.family →
      s.family = Option.none ∧
      ∃ w fam, s.fetch = some w ∧ decode w = .ok (.setFamily fam) ∧ t.family = some fam

/-- SESSION changes only as the transition table says. Rests on 10_state.md section 2. -/
def Obligations.SessionFollowsTheTable : Prop :=
  ∀ (i : Instr) (s t : State), Running s → exec i s = .next t →
    (Running t → s.session = acceptedSession i ∧ t.session = resultSession i) ∧
    (¬ Running t → t.session = s.session)

/-- No step changes the parameters, the family status bit or the command stream. Rests on 10_state.md section 2,
20_memory.md section 3. -/
def Obligations.StepNeverChangesParametersOrStream : Prop :=
  ∀ s t : State, step s = .next t →
    t.config = s.config ∧ t.familyBit = s.familyBit ∧ t.commands = s.commands

/-- A step appends composed writes and holds, one write for each one the port bus accepted, and then at most one
final F. Rests on 20_memory.md sections 2 and 3, 60_exceptions.md section 3, notes/assumptions/5.md,
notes/assumptions/7.md, notes/assumptions/9.md. The model's choices: the answers of the port bus (log entry 5), the
counter of draws (log entry 7), and that a write event records the port address (log entry 9). -/
def Obligations.TraceOnlyGrows : Prop :=
  ∀ s t : State, step s = .next t →
    ∃ events tail, t.trace = s.trace ++ events ++ tail ∧
      events.all (fun e => !isFault e) = true ∧
      (∀ a w, .write a w ∈ events →
        a = s.gpioAddr ∧ ∃ cs clk dataOut, w = compose s.config cs clk dataOut) ∧
      (Running t → tail = []) ∧ (¬ Running t → tail = [.fault t.fault.code]) ∧
      s.accepts (writtenWords events).length ∧
      (t.fault.code ≠ 4#3 →
        t.bus = (s.spent (writtenWords events).length).bus ∧
        t.draws = (s.spent (writtenWords events).length).draws) ∧
      (t.fault.code = 4#3 →
        s.answer (writtenWords events).length = .failed ∧
        t.bus = (s.spent ((writtenWords events).length + 1)).bus)

/-- Every bit of the word the line driver writes. Formalises R61. -/
def Obligations.ComposedWordBits : Prop :=
  ∀ (c : Configuration) (cs clk dataOut : Bool) (p : Fin 32),
    (compose c cs clk dataOut).getLsbD p.val =
      if p = c.board.pCs then cs
      else if p = c.board.pClk then clk
      else if p = c.board.pDo then dataOut
      else if p = c.board.pOe then true
      else false

/-- After the engine's first write output_enable is 1 and chip_select, clock and data_out are at the levels of their
bits in LINES. Rests on 10_state.md section 1. -/
def Obligations.OutputEnableStaysAsserted : Prop :=
  ∀ s : State, Consistent s → s.fault.code ≠ 4#3 → writtenWords s.trace ≠ [] →
    s.lines.getLsbD s.config.board.pOe.val = true ∧
    ∀ l : Line, lineLevel s l = some (s.lines.getLsbD (linePosition s.config.board l).val)

/-- I2C_WRITE, and the primitive sequence, make exactly 88 writes, whatever the operands. Formalises R120. -/
def Obligations.TwoWireTransactionMakes88Writes : Prop :=
  ∀ s : State, Running s → s.family = some .i2c → s.session = .none → s.accepts 88 →
    (∀ addr val : Byte, ∃ t events, exec (.i2cWrite addr val) s = .next t ∧
      t.trace = s.trace ++ events ∧ (writtenWords events).length = 88) ∧
    (∀ a b c : Byte, ∃ t events,
      execAll [.i2cInit, .i2cStart, .i2cSendByte a, .i2cSendByte b, .i2cSendByte c, .i2cStop] s = .next t ∧
      t.trace = s.trace ++ events ∧ (writtenWords events).length = 88)

/-- SPI_WRITE_ENABLE, SPI_WRITE and SPI_WRITE_DISABLE each make exactly 78 writes. Formalises R151. -/
def Obligations.FourWireCommandsMake78Writes : Prop :=
  ∀ (i : Instr) (s : State),
    (i = .spiWriteEnable ∨ (∃ addr data, i = .spiWrite addr data) ∨ i = .spiWriteDisable) →
    Running s → s.family = some .fourwire → s.session = .none → s.accepts 78 →
    ∃ t events, exec i s = .next t ∧ t.trace = s.trace ++ events ∧ (writtenWords events).length = 78

/-- The data at the rising clock edges of a byte are its bits, most significant first, then one 0. Rests on
41_i2c_engine.md. -/
def Obligations.ByteSamplesAreMsbFirst : Prop :=
  ∀ (b : Byte) (s : State), Running s → s.family = some .i2c → s.session = .i2cStarted → s.accepts 27 →
    ∃ t events, exec (.i2cSendByte b) s = .next t ∧ t.trace = s.trace ++ events ∧
      samples s.config events = msbFirst 8 b.getLsbD ++ [false] ∧
      dataStableWhileHigh (lineStates s.config events) = true

/-- Over a whole I2C_WRITE the data at the rising clock edges are 1, the three byte frames, 0. Rests on
41_i2c_engine.md. -/
def Obligations.TransactionSamplesAreMsbFirst : Prop :=
  ∀ (addr val : Byte) (s : State), Running s → s.family = some .i2c → s.session = .none → s.accepts 88 →
    ∃ t events, exec (.i2cWrite addr val) s = .next t ∧ t.trace = s.trace ++ events ∧
      samples s.config events =
        [true] ++ msbFirst 8 s.config.defaults.devSel.getLsbD ++ [false] ++ msbFirst 8 addr.getLsbD ++ [false]
          ++ msbFirst 8 val.getLsbD ++ [false] ++ [false]

/-- The data at the rising clock edges of a field, and of a 4-wire command, are its bits, most significant first.
Formalises R149. -/
def Obligations.FieldSamplesAreMsbFirst : Prop :=
  (∀ (width : BitVec 5) (value : BitVec 16) (s : State), Running s →
      1 ≤ width.toNat → width.toNat ≤ 16 → value.toNat < 2 ^ width.toNat →
      s.family = some .fourwire → s.session = .spiSelected → s.accepts (3 * width.toNat) →
      ∃ t events, exec (.spiSendField width value) s = .next t ∧ t.trace = s.trace ++ events ∧
        samples s.config events = msbFirst width.toNat value.getLsbD) ∧
    ∀ (i : Instr) (frame : BitVec 25) (s : State), Running s →
      ((i = .spiWriteEnable ∧ frame =
          s.config.defaults.spiOpcWen ++ s.config.defaults.spiAddrWen ++ s.config.defaults.spiDataWen) ∨
        (∃ addr data, i = .spiWrite addr data ∧ frame = s.config.defaults.spiOpcWrite ++ addr ++ data) ∨
        (i = .spiWriteDisable ∧ frame =
          s.config.defaults.spiOpcWds ++ s.config.defaults.spiAddrWds ++ s.config.defaults.spiDataWds)) →
      s.family = some .fourwire → s.session = .none → s.accepts 78 →
      ∃ t events, exec i s = .next t ∧ t.trace = s.trace ++ events ∧
        samples s.config events = msbFirst 25 frame.getLsbD ∧
        ((lineStates s.config events).take 2).all (fun n => !n.getLsbD 2) = true ∧
        ((lineStates s.config events).drop 77).all (fun n => !n.getLsbD 2) = true

/-- In a 4-wire command chip-select is 1 from the assertion to the last field bit and 0 only in the deselect writes.
Formalises R148. -/
def Obligations.ChipSelectHeldThroughACommand : Prop :=
  ∀ (i : Instr) (s : State),
    (i = .spiWriteEnable ∨ (∃ addr data, i = .spiWrite addr data) ∨ i = .spiWriteDisable) →
    Running s → s.family = some .fourwire → s.session = .none → s.accepts 78 →
    ∃ t events, exec i s = .next t ∧ t.trace = s.trace ++ events ∧
      (lineStates s.config events).map (fun n => n.getLsbD 3) = [false] ++ List.replicate 76 true ++ [false]

/-- With the source's values Write-Enable and Write-Disable append identical traces of 78 writes. Formalises R147.
-/
def Obligations.WriteEnableEqualsWriteDisable : Prop :=
  ∀ s : State, Running s → s.family = some .fourwire → s.session = .none → s.accepts 78 →
    s.config.defaults.spiOpcWen = 4#3 → s.config.defaults.spiOpcWds = 4#3 →
    s.config.defaults.spiAddrWen = 0#6 → s.config.defaults.spiAddrWds = 0#6 →
    s.config.defaults.spiDataWen = 0#16 → s.config.defaults.spiDataWds = 0#16 →
    ∃ t events, exec .spiWriteEnable s = .next t ∧ exec .spiWriteDisable s = .next t ∧
      t.trace = s.trace ++ events ∧ (writtenWords events).length = 78

/-- The least time of each transaction, and that a Write holds chip-select low strictly longer. Rests on
70_reset_and_hazards.md section 5, 42_spi4_engine.md (pauses). -/
def Obligations.MinimumDurations : Prop :=
  (∀ (addr val : Byte) (s : State), Running s → s.family = some .i2c → s.session = .none → s.accepts 88 →
      ∃ t events, exec (.i2cWrite addr val) s = .next t ∧ t.trace = s.trace ++ events ∧
        minDuration s.config.board events =
          2 * s.config.board.tI2cInit + 5 * s.config.board.tI2cFrame + 81 * s.config.board.tI2cBit) ∧
    ∀ s : State, Running s → s.family = some .fourwire → s.session = .none → s.accepts 78 →
      (∃ t events, exec .spiWriteEnable s = .next t ∧ t.trace = s.trace ++ events ∧
        events.getLast? = some (.hold .spiShort) ∧
        minDuration s.config.board events =
          s.config.board.tSpiPre + 76 * s.config.board.tSpiBit + s.config.board.tSpiShort) ∧
      (∃ t events, exec .spiWriteDisable s = .next t ∧ t.trace = s.trace ++ events ∧
        events.getLast? = some (.hold .spiShort) ∧
        minDuration s.config.board events =
          s.config.board.tSpiPre + 76 * s.config.board.tSpiBit + s.config.board.tSpiShort) ∧
      (∀ (addr : BitVec 6) (data : BitVec 16), ∃ t events, exec (.spiWrite addr data) s = .next t ∧
        t.trace = s.trace ++ events ∧ events.getLast? = some (.hold .spiLong) ∧
        minDuration s.config.board events =
          s.config.board.tSpiPre + 76 * s.config.board.tSpiBit + s.config.board.tSpiLong) ∧
      s.config.board.tSpiShort < s.config.board.tSpiLong

/-- Each composite command equals its sequence of primitive commands, but for pc. Formalises R76. -/
def Obligations.CompositesEqualTheirPrimitives : Prop :=
  (∀ (a v : Byte) (s : State), Running s → s.family = some .i2c → s.session = .none → s.accepts 88 →
      ∃ t, exec (.i2cWrite a v) s = .next t ∧ t.pc = s.pc + 1 ∧
        execAll [.i2cInit, .i2cStart, .i2cSendByte s.config.defaults.devSel, .i2cSendByte a, .i2cSendByte v, .i2cStop]
          s = .next { t with pc := s.pc + 6 }) ∧
    ∀ s : State, Running s → s.family = some .fourwire → s.session = .none → s.accepts 78 →
      s.config.defaults.spiOpcWen = 4#3 → s.config.defaults.spiOpcWrite = 5#3 →
      s.config.defaults.spiOpcWds = 4#3 → s.config.defaults.spiAddrWen = 0#6 →
      s.config.defaults.spiAddrWds = 0#6 → s.config.defaults.spiDataWen = 0#16 →
      s.config.defaults.spiDataWds = 0#16 →
      (∃ t, exec .spiWriteEnable s = .next t ∧ t.pc = s.pc + 1 ∧
        execAll [.spiSelect, .spiSendField 3#5 4#16, .spiSendField 6#5 0#16, .spiSendField 16#5 0#16,
          .spiDeselect .short] s = .next { t with pc := s.pc + 5 }) ∧
      (∀ (a : BitVec 6) (d : BitVec 16), ∃ t, exec (.spiWrite a d) s = .next t ∧ t.pc = s.pc + 1 ∧
        execAll [.spiSelect, .spiSendField 3#5 5#16, .spiSendField 6#5 (a.setWidth 16), .spiSendField 16#5 d,
          .spiDeselect .long] s = .next { t with pc := s.pc + 5 }) ∧
      (∃ t, exec .spiWriteDisable s = .next t ∧ t.pc = s.pc + 1 ∧
        execAll [.spiSelect, .spiSendField 3#5 4#16, .spiSendField 6#5 0#16, .spiSendField 16#5 0#16,
          .spiDeselect .short] s = .next { t with pc := s.pc + 5 })

/-- PROGRAM equals I2C_WRITE, or Write-Enable, Write, Write-Disable, on the engine FAMILY names. Rests on
43_selection_glue.md. -/
def Obligations.ProgramEqualsTheEnginesCommands : Prop :=
  (∀ (addr : Byte) (value : BitVec 16) (s : State), Running s → s.family = some .i2c → s.session = .none →
      value.toNat < 256 → s.accepts 88 →
      ∃ t, exec (.program addr value) s = .next t ∧ exec (.i2cWrite addr (value.extractLsb' 0 8)) s = .next t) ∧
    ∀ (addr : Byte) (value : BitVec 16) (s : State), Running s → s.family = some .fourwire → s.session = .none →
      addr.toNat < 64 → s.accepts 234 →
      ∃ t, exec (.program addr value) s = .next t ∧ t.pc = s.pc + 1 ∧
        execAll [.spiWriteEnable, .spiWrite (addr.extractLsb' 0 6) value, .spiWriteDisable] s =
          .next { t with pc := s.pc + 3 }

/-- GPIO_ADDR is a multiple of 4 in every configuration, and parameters that break this are refused as a whole.
Formalises R46. -/
def Obligations.MisalignedConfigurationIsRefused : Prop :=
  (∀ s : State, s.gpioAddr % 4 = 0) ∧
    ∀ (d : Defaults) (b : Board), b.gpioAddr % 4 ≠ 0 → powerOn d b = .refused .illegalConfiguration

/-- Before the engine's first write the host's read of the register gives the family status bit at P_FAM. Rests on
10_state.md sections 2 and 3, 70_reset_and_hazards.md section 3, notes/assumptions/7.md, notes/assumptions/8.md,
notes/assumptions/19.md, notes/assumptions/29.md. The model's choices: the read changes the counter of draws alone
(log entries 7 and 8), a failed write counts as a write (log entry 19), and the field that remembers a write (log
entry 29). -/
def Obligations.HostReadsTheFamilyBeforeAnyWrite : Prop :=
  ∀ s : State, s.registerWritten = false →
    (readRegister s).1.getLsbD s.config.board.pFam.val = s.familyBit ∧
    familyOfRegister s.config.board (readRegister s).1 =
      (if s.familyBit = s.config.board.famPol then .fourwire else .i2c) ∧
    (readRegister s).2 = { s with draws := s.draws + 1 }

/-- Legal parameters give the machine after reset with them; parameters that break a constraint are refused. Rests
on 70_reset_and_hazards.md sections 1 and 2, 00_scope.md section 3, notes/assumptions/2.md, notes/assumptions/18.md.
The model's choices: what the state after reset is beside its parameters (log entry 2), and that every broken
constraint is refused, not the alignment alone (log entry 18). -/
def Obligations.LegalConfigurationPowersOn : Prop :=
  ∀ (d : Defaults) (b : Board),
    (∀ h : legalParameters d b = true, powerOn d b = .next { State.reset with config := ⟨d, b, h⟩ }) ∧
    (legalParameters d b = false → powerOn d b = .refused .illegalConfiguration)

/-- Once the engine has written the register, or tried to, every later read of it is a draw, after a reset too.
Rests on 10_state.md section 2, 70_reset_and_hazards.md sections 1 and 3, notes/assumptions/8.md,
notes/assumptions/19.md, notes/assumptions/29.md. The model's choices: the note is a field of its own (log entry
29), a failed write counts (log entry 19), and the draws are free values (log entry 8). -/
def Obligations.WrittenRegisterIsNeverForgotten : Prop :=
  (∀ s t : State, step s = .next t →
      (s.registerWritten = true → t.registerWritten = true) ∧
      (writtenWords t.trace ≠ writtenWords s.trace ∨ t.fault.code = 4#3 → t.registerWritten = true)) ∧
    ∀ (s : State) (commands : List Word), s.registerWritten = true →
      (resetEngine commands s).registerWritten = true ∧
      (readRegister s).1 = Config.drawReadback s.draws ∧
      (readRegister (resetEngine commands s)).1 = Config.drawReadback (s.draws + 1)

/-- A run that ends does so well or badly, and a fault inside an open session is a faulted end and an incomplete
session. Rests on 70_reset_and_hazards.md sections 3 and 4, 92_eei_decisions.md D26, notes/assumptions/24.md. When a
run has ended is the model's reading (log entry 24). -/
def Obligations.BadEndsAreFaultsOrOpenSessions : Prop :=
  (∀ s : State, runEnded s = true →
      (goodEnd s = true ↔ s.fault.code = 0#3 ∧ s.session = .none) ∧
      (badEnd s = true ↔ s.fault.code ≠ 0#3 ∨ s.session ≠ .none)) ∧
    ∀ (i : Instr) (s t : State), Running s → s.session ≠ .none → exec i s = .next t → ¬ Running t →
      faultedEnd t = true ∧ incompleteSession t = true ∧ goodEnd t = false

/-- Write-Enable before Write is asked of Write frames built from primitive commands as of SPI_WRITE. Rests on
70_reset_and_hazards.md section 3, 30_encoding.md sections 3 and 4, notes/assumptions/22.md. What counts as a frame
is the model's reading of R245 (log entry 22). -/
def Obligations.HandBuiltFramesCountAsTheirCommands : Prop :=
  ∀ (d : Defaults) (a : BitVec 6) (x : BitVec 16) (p q : Pause), d.spiOpcWen ≠ d.spiOpcWrite →
    let written := [Instr.spiSelect, .spiSendField 3#5 (d.spiOpcWrite.setWidth 16), .spiSendField 6#5 (a.setWidth 16),
      .spiSendField 16#5 x, .spiDeselect p]
    let enabling := [Instr.spiSelect, .spiSendField 3#5 (d.spiOpcWen.setWidth 16),
      .spiSendField 6#5 (d.spiAddrWen.setWidth 16), .spiSendField 16#5 d.spiDataWen, .spiDeselect q]
    writeEnabledFirst d written = false ∧ writeEnabledFirst d [.spiWrite a x] = false ∧
    writeEnabledFirst d (.spiWriteEnable :: written) = true ∧ writeEnabledFirst d (enabling ++ written) = true ∧
    writeEnabledFirst d (enabling ++ [.spiWrite a x]) = true
end

