-- ==== Sys2Proof/Laws/State.lean ====
section
/-! SUPPORT. One lemma for each field and each update of the state, true by `rfl`, so that no proof unfolds an update. -/

namespace Sys2Proof.Machine

section Spent

variable (s : State) (n : Nat)

@[simp] theorem State.spent_config : (s.spent n).config = s.config := rfl
@[simp] theorem State.spent_commands : (s.spent n).commands = s.commands := rfl
@[simp] theorem State.spent_pc : (s.spent n).pc = s.pc := rfl
@[simp] theorem State.spent_lines : (s.spent n).lines = s.lines := rfl
@[simp] theorem State.spent_familyBit : (s.spent n).familyBit = s.familyBit := rfl
@[simp] theorem State.spent_registerWritten : (s.spent n).registerWritten = (s.registerWritten || decide (0 < n)) := rfl
@[simp] theorem State.spent_family : (s.spent n).family = s.family := rfl
@[simp] theorem State.spent_session : (s.spent n).session = s.session := rfl
@[simp] theorem State.spent_fault : (s.spent n).fault = s.fault := rfl
@[simp] theorem State.spent_trace : (s.spent n).trace = s.trace := rfl
@[simp] theorem State.spent_bus : (s.spent n).bus = s.bus.drop n := rfl
@[simp] theorem State.spent_draws : (s.spent n).draws = s.draws + (n - s.bus.length) := rfl
@[simp] theorem State.spent_gpioAddr : (s.spent n).gpioAddr = s.gpioAddr := rfl

end Spent

section TakeFault

variable (cause : FaultCause) (cmd : Word) (s : State)

@[simp] theorem takeFault_config : (takeFault cause cmd s).config = s.config := rfl
@[simp] theorem takeFault_commands : (takeFault cause cmd s).commands = s.commands := rfl
@[simp] theorem takeFault_pc : (takeFault cause cmd s).pc = s.pc := rfl
@[simp] theorem takeFault_lines : (takeFault cause cmd s).lines = s.lines := rfl
@[simp] theorem takeFault_familyBit : (takeFault cause cmd s).familyBit = s.familyBit := rfl
@[simp] theorem takeFault_registerWritten : (takeFault cause cmd s).registerWritten = s.registerWritten := rfl
@[simp] theorem takeFault_family : (takeFault cause cmd s).family = s.family := rfl
@[simp] theorem takeFault_session : (takeFault cause cmd s).session = s.session := rfl
@[simp] theorem takeFault_code : (takeFault cause cmd s).fault.code = cause.code := rfl
@[simp] theorem takeFault_faultPc : (takeFault cause cmd s).fault.pc = s.pc := rfl
@[simp] theorem takeFault_faultCmd : (takeFault cause cmd s).fault.cmd = cmd := rfl
@[simp] theorem takeFault_trace : (takeFault cause cmd s).trace = s.trace ++ [.fault cause.code] := rfl
@[simp] theorem takeFault_bus : (takeFault cause cmd s).bus = s.bus := rfl
@[simp] theorem takeFault_draws : (takeFault cause cmd s).draws = s.draws := rfl

end TakeFault

section Hold

variable (t : HoldName) (s : State)

@[simp] theorem hold_config : (hold t s).config = s.config := rfl
@[simp] theorem hold_commands : (hold t s).commands = s.commands := rfl
@[simp] theorem hold_pc : (hold t s).pc = s.pc := rfl
@[simp] theorem hold_lines : (hold t s).lines = s.lines := rfl
@[simp] theorem hold_familyBit : (hold t s).familyBit = s.familyBit := rfl
@[simp] theorem hold_registerWritten : (hold t s).registerWritten = s.registerWritten := rfl
@[simp] theorem hold_family : (hold t s).family = s.family := rfl
@[simp] theorem hold_session : (hold t s).session = s.session := rfl
@[simp] theorem hold_fault : (hold t s).fault = s.fault := rfl
@[simp] theorem hold_trace : (hold t s).trace = s.trace ++ [.hold t] := rfl
@[simp] theorem hold_bus : (hold t s).bus = s.bus := rfl
@[simp] theorem hold_draws : (hold t s).draws = s.draws := rfl

end Hold

section Finish

variable (after : Session) (s : State)

@[simp] theorem finish_config : (finish after s).config = s.config := rfl
@[simp] theorem finish_commands : (finish after s).commands = s.commands := rfl
@[simp] theorem finish_pc : (finish after s).pc = s.pc + 1 := rfl
@[simp] theorem finish_lines : (finish after s).lines = s.lines := rfl
@[simp] theorem finish_familyBit : (finish after s).familyBit = s.familyBit := rfl
@[simp] theorem finish_registerWritten : (finish after s).registerWritten = s.registerWritten := rfl
@[simp] theorem finish_family : (finish after s).family = s.family := rfl
@[simp] theorem finish_session : (finish after s).session = after := rfl
@[simp] theorem finish_fault : (finish after s).fault = s.fault := rfl
@[simp] theorem finish_trace : (finish after s).trace = s.trace := rfl
@[simp] theorem finish_bus : (finish after s).bus = s.bus := rfl
@[simp] theorem finish_draws : (finish after s).draws = s.draws := rfl

end Finish

section ResetEngine

variable (commands : List Word) (s : State)

@[simp] theorem resetEngine_config : (resetEngine commands s).config = s.config := rfl
@[simp] theorem resetEngine_commands : (resetEngine commands s).commands = commands := rfl
@[simp] theorem resetEngine_pc : (resetEngine commands s).pc = 0 := rfl
@[simp] theorem resetEngine_familyBit : (resetEngine commands s).familyBit = s.familyBit := rfl
@[simp] theorem resetEngine_registerWritten : (resetEngine commands s).registerWritten = s.registerWritten := rfl
@[simp] theorem resetEngine_family : (resetEngine commands s).family = Option.none := rfl
@[simp] theorem resetEngine_session : (resetEngine commands s).session = .none := rfl
@[simp] theorem resetEngine_code : (resetEngine commands s).fault.code = 0#3 := rfl
@[simp] theorem resetEngine_trace : (resetEngine commands s).trace = [] := rfl
@[simp] theorem resetEngine_bus : (resetEngine commands s).bus = s.bus := rfl
@[simp] theorem resetEngine_draws : (resetEngine commands s).draws = s.draws + 1 := rfl

end ResetEngine

section Halted

theorem State.halted_eq_false_iff (s : State) : s.halted = false ↔ s.fault.code = 0#3 := by
  simp [State.halted]

theorem State.halted_eq_true_iff (s : State) : s.halted = true ↔ s.fault.code ≠ 0#3 := by
  simp [State.halted]

end Halted

end Sys2Proof.Machine
end

