-- ==== Sys2Proof/Laws/Ops.lean ====
section
/-! SUPPORT. For each shared operation of Machine/Ops.lean, one lemma that says once what it can do. -/

namespace Sys2Proof.Machine

/-! ## The port bus -/

@[simp] theorem State.spent_zero (s : State) : s.spent 0 = s := by
  simp [State.spent]

theorem State.spent_spent (s : State) (m n : Nat) : (s.spent m).spent n = s.spent (m + n) := by
  have hw : (s.registerWritten || decide (0 < m) || decide (0 < n)) = (s.registerWritten || decide (0 < m + n)) := by
    rw [Bool.or_assoc, ← Bool.decide_or]
    exact congrArg _ (decide_eq_decide.mpr (by omega))
  simp only [State.spent, List.drop_drop, List.length_drop, State.mk.injEq, true_and, hw]
  omega

theorem State.answer_spent (s : State) (m k : Nat) : (s.spent m).answer k = s.answer (m + k) := by
  simp only [State.answer, State.spent_bus, State.spent_draws, List.getElem?_drop, List.length_drop]
  cases h : s.bus[m + k]? with
  | some a => rfl
  | none =>
      have := List.getElem?_eq_none_iff.mp h
      show Config.drawPortAnswer _ = Config.drawPortAnswer _
      congr 1; omega

/-- The answers depend on the bus and the counter of draws alone. -/
theorem State.answer_congr {s t : State} (hb : t.bus = s.bus) (hd : t.draws = s.draws) (k : Nat) :
    t.answer k = s.answer k := by
  simp [State.answer, hb, hd]

theorem State.accepts_succ_iff (s : State) (n : Nat) :
    s.accepts (n + 1) ↔ s.answer 0 = .accepted ∧ (s.spent 1).accepts n := by
  constructor
  · intro h
    exact ⟨h 0 (by omega), fun k hk => by rw [State.answer_spent]; exact h (1 + k) (by omega)⟩
  · rintro ⟨h0, h⟩ k hk
    cases k with
    | zero => exact h0
    | succ k => have := h k (by omega); rwa [State.answer_spent, Nat.add_comm] at this

/-- What a port write can do (R42, R205). -/
theorem portWrite_cases (addr : Nat) (w : Word) (s : State) :
    (s.answer 0 = .accepted ∧
      portWrite addr w s = .done { s.spent 1 with lines := w, trace := s.trace ++ [.write addr w] }) ∨
    (s.answer 0 = .failed ∧
      portWrite addr w s = .failed { s.spent 1 with
        lines := Config.drawLines (s.spent 1).draws, draws := (s.spent 1).draws + 1 }) := by
  cases h : s.answer 0 with
  | accepted => exact .inl ⟨rfl, by simp [portWrite, h]⟩
  | failed => exact .inr ⟨rfl, by simp [portWrite, h]⟩

/-! ## Drives -/

/-- The events of a drive whose write succeeds (R101). -/
def driveEvents (c : Configuration) (d : Drive) : List Event :=
  .write c.gpioAddr (compose c d.cs d.clk d.dataOut) :: (d.hold.toList.map .hold)

/-- The events of drives whose writes all succeed (R49). -/
def drivesEvents (c : Configuration) (ds : List Drive) : List Event := ds.flatMap (driveEvents c)

/-- LINES after drives whose writes all succeed: the word of the last one. -/
def drivenLines (c : Configuration) (ds : List Drive) (lines : Word) : Word :=
  (ds.getLast?.map fun d => compose c d.cs d.clk d.dataOut).getD lines

/-- The state after drives whose writes all succeed. -/
def driven (ds : List Drive) (s : State) : State :=
  { s.spent ds.length with
    lines := drivenLines s.config ds s.lines
    trace := s.trace ++ drivesEvents s.config ds }

/-- The state after drives whose writes succeed, then a write that fails (R205). -/
def broken (ds : List Drive) (s : State) : State :=
  let t := driven ds s
  { t.spent 1 with lines := Config.drawLines (t.spent 1).draws, draws := (t.spent 1).draws + 1 }

theorem drive_accepted {d : Drive} {s : State} (h : s.answer 0 = .accepted) :
    drive d s = .done (driven [d] s) := by
  rcases portWrite_cases s.gpioAddr (compose s.config d.cs d.clk d.dataOut) s with ⟨_, hw⟩ | ⟨h', _⟩
  · simp only [drive, hw]
    cases hd : d.hold <;>
      simp [serve, hold, driven, drivenLines, drivesEvents, driveEvents, hd, State.gpioAddr]
  · simp [h] at h'

theorem drive_failed {d : Drive} {s : State} (h : s.answer 0 = .failed) :
    drive d s = .failed (broken [] s) := by
  rcases portWrite_cases s.gpioAddr (compose s.config d.cs d.clk d.dataOut) s with ⟨h', _⟩ | ⟨_, hw⟩
  · simp [h] at h'
  · simp [drive, hw, broken, driven, drivenLines, drivesEvents]

theorem drivenLines_cons (c : Configuration) (d : Drive) (ds : List Drive) (l : Word) :
    drivenLines c ds (compose c d.cs d.clk d.dataOut) = drivenLines c (d :: ds) l := by
  rcases ds with _ | ⟨e, es⟩
  · rfl
  · simp [drivenLines, List.getLast?_cons]

theorem driven_cons (d : Drive) (ds : List Drive) (s : State) :
    driven ds (driven [d] s) = driven (d :: ds) s := by
  simp only [driven, State.mk.injEq, List.length_cons, List.length_nil]
  refine ⟨rfl, rfl, rfl, ?_, rfl, ?_, rfl, rfl, rfl, ?_, ?_, ?_⟩
  · exact drivenLines_cons s.config d ds s.lines
  · simp [State.spent]
  · simp [drivesEvents]
  · simp
  · simp; omega

theorem driven_answer (ds : List Drive) (s : State) (k : Nat) :
    (driven ds s).answer k = s.answer (ds.length + k) := by
  rw [← State.answer_spent]
  exact State.answer_congr rfl rfl k

/-- Drives whose writes the port bus all accepts. -/
theorem driveAll_accepted (ds : List Drive) (s : State) (h : s.accepts ds.length) :
    driveAll ds s = .done (driven ds s) := by
  induction ds generalizing s with
  | nil => simp [driveAll, driven, drivenLines, drivesEvents]
  | cons d ds ih =>
      have h' := (s.accepts_succ_iff ds.length).mp h
      have hk : (driven [d] s).accepts ds.length := fun k hk => by
        rw [driven_answer]; exact h (1 + k) (by simp; omega)
      simp [driveAll, drive_accepted h'.1, ih _ hk, driven_cons]

/-- Drives of which the port bus accepts the first `k` writes and fails the next. -/
theorem driveAll_failed (ds : List Drive) (s : State) (k : Nat) (hk : k < ds.length)
    (h : s.accepts k) (hf : s.answer k = .failed) :
    driveAll ds s = .failed (broken (ds.take k) s) := by
  induction ds generalizing s k with
  | nil => simp at hk
  | cons d ds ih =>
      cases k with
      | zero => simp [driveAll, drive_failed hf]
      | succ k =>
          have h0 : s.answer 0 = .accepted := h 0 (by omega)
          have ha : (driven [d] s).accepts k := fun j hj => by
            rw [driven_answer]; exact h (1 + j) (by omega)
          have hf' : (driven [d] s).answer k = .failed := by
            rw [driven_answer, List.length_singleton, Nat.add_comm]; exact hf
          simp only [driveAll, drive_accepted h0, List.take_succ_cons,
            ih _ k (by simpa using hk) ha hf', broken, driven_cons]

/-- Either the port bus accepts each of the next `n` writes, or there is a first one it fails. -/
theorem State.accepts_or_failed (s : State) (n : Nat) :
    s.accepts n ∨ ∃ k, k < n ∧ s.accepts k ∧ s.answer k = .failed := by
  induction n with
  | zero => exact .inl fun k hk => absurd hk (by omega)
  | succ n ih =>
      rcases ih with h | ⟨k, hk, ha, hf⟩
      · cases hn : s.answer n with
        | accepted =>
            refine .inl fun k hk => ?_
            rcases Nat.lt_succ_iff_lt_or_eq.mp hk with hk | rfl
            · exact h k hk
            · exact hn
        | failed => exact .inr ⟨n, by omega, h, hn⟩
      · exact .inr ⟨k, by omega, ha, hf⟩

/-- What running the line changes of a command can do (R205). -/
theorem transmit_cases (i : Instr) (ds : List Drive) (after : Session) (s : State) :
    (s.accepts ds.length ∧ transmit i ds after s = finish after (driven ds s)) ∨
    (∃ k, k < ds.length ∧ s.accepts k ∧ s.answer k = .failed ∧
      transmit i ds after s = takeFault .portWriteFailure (encode i) (broken (ds.take k) s)) := by
  rcases s.accepts_or_failed ds.length with h | ⟨k, hk, ha, hf⟩
  · exact .inl ⟨h, by simp [transmit, driveAll_accepted ds s h]⟩
  · exact .inr ⟨k, hk, ha, hf, by simp [transmit, driveAll_failed ds s k hk ha hf]⟩

/-! ## The common checks -/

/-- What the checks around a command can do (R201, R208). -/
theorem command_cases (i : Instr) (need : FamilyNeed) (accepted : Session) (body : State → State) (s : State) :
    (s.fault.code ≠ 0#3 ∧ command i need accepted body s = .fault .halted) ∨
    (s.fault.code = 0#3 ∧ i.wellFormed = false ∧
      command i need accepted body s = .next (takeFault .illegalCommand (encode i) s)) ∨
    (s.fault.code = 0#3 ∧ i.wellFormed = true ∧ familyMatches need s.family = false ∧
      command i need accepted body s = .next (takeFault .familyError (encode i) s)) ∨
    (s.fault.code = 0#3 ∧ i.wellFormed = true ∧ familyMatches need s.family = true ∧ s.session ≠ accepted ∧
      command i need accepted body s = .next (takeFault .sequenceError (encode i) s)) ∨
    (s.fault.code = 0#3 ∧ i.wellFormed = true ∧ familyMatches need s.family = true ∧ s.session = accepted ∧
      command i need accepted body s = .next (body s)) := by
  by_cases h0 : s.fault.code = 0#3
  · cases h1 : i.wellFormed <;> cases h2 : familyMatches need s.family <;>
      by_cases h3 : s.session = accepted <;> simp [command, State.halted, h0, h1, h2, h3]
  · simp [command, State.halted, h0]

/-- A command whose checks all pass runs its own pseudocode (R201). -/
theorem command_admitted {i : Instr} {need : FamilyNeed} {accepted : Session} {body : State → State} {s : State}
    (h0 : s.fault.code = 0#3) (h1 : i.wellFormed = true) (h2 : familyMatches need s.family = true)
    (h3 : s.session = accepted) : command i need accepted body s = .next (body s) := by
  simp [command, State.halted, h0, h1, h2, h3]

/-! ## Waveforms -/

@[simp] theorem waveform_append (c : Configuration) (a b : List (BitVec 4 × HoldName)) :
    waveform c (a ++ b) = waveform c a ++ waveform c b := by
  induction a with
  | nil => rfl
  | cons x a ih => simp [waveform, ih]

@[simp] theorem writtenWords_append (a b : List Event) :
    writtenWords (a ++ b) = writtenWords a ++ writtenWords b := by
  induction a with
  | nil => rfl
  | cons e a ih => cases e <;> simp [writtenWords, ih]

theorem writtenWords_waveform (c : Configuration) (l : List (BitVec 4 × HoldName)) :
    writtenWords (waveform c l) = l.map fun x => nibbleWord c x.1 := by
  induction l with
  | nil => rfl
  | cons x l ih => simp [waveform, writtenWords, ih]

@[simp] theorem minDuration_append (b : Board) (x y : List Event) :
    minDuration b (x ++ y) = minDuration b x + minDuration b y := by
  induction x with
  | nil => simp [minDuration]
  | cons e x ih => cases e <;> simp [minDuration, ih, Nat.add_assoc]

end Sys2Proof.Machine
end

