-- ==== Sys2Proof/Laws/PerInstr.lean ====
section
/-! SUPPORT. Statements made instruction by instruction. `OpcodeNibble`: the encoder puts the opcode of R71 in
`CMD[31:28]`. -/

namespace Sys2Proof.Laws

/-- `OP` of each command (R71). -/
def opcodeNibble : Instr → BitVec 4
  | .setLines _ _ _ => 0x1#4
  | .i2cInit => 0x2#4
  | .i2cStart => 0x3#4
  | .i2cSendBit _ => 0x4#4
  | .i2cSendByte _ => 0x5#4
  | .i2cStop => 0x6#4
  | .i2cWrite _ _ => 0x7#4
  | .spiSelect => 0x8#4
  | .spiSendField _ _ => 0x9#4
  | .spiDeselect _ => 0xA#4
  | .spiWriteEnable => 0xB#4
  | .spiWrite _ _ => 0xC#4
  | .spiWriteDisable => 0xD#4
  | .setFamily _ => 0xE#4
  | .program _ _ => 0xF#4

/-- The opcode field of an encoded command is the opcode of R71. -/
def OpcodeNibble.Statement (i : Instr) : Prop := opcodeOf (encode i) = opcodeNibble i

/-- The value of a concatenation, for arithmetic. -/
theorem toNat_append_eq {m n : Nat} (x : BitVec m) (y : BitVec n) :
    (x ++ y).toNat = x.toNat * 2 ^ n + y.toNat := by
  rw [BitVec.toNat_append, ← Nat.shiftLeft_add_eq_or_of_lt y.isLt, Nat.shiftLeft_eq]

/-- The value of a bit field, for arithmetic. -/
theorem bitField_toNat (lo len : Nat) (w : Word) : (bitField lo len w).toNat = w.toNat / 2 ^ lo % 2 ^ len := by
  simp [bitField, BitVec.extractLsb'_toNat, Nat.shiftRight_eq_div_pow]

theorem OpcodeNibble.setLines (cs clk dataOut : Bool) : OpcodeNibble.Statement (.setLines cs clk dataOut) := by
  cases cs <;> cases clk <;> cases dataOut <;> rfl

theorem OpcodeNibble.i2cInit : OpcodeNibble.Statement .i2cInit := rfl

theorem OpcodeNibble.i2cStart : OpcodeNibble.Statement .i2cStart := rfl

theorem OpcodeNibble.i2cSendBit (v : Bool) : OpcodeNibble.Statement (.i2cSendBit v) := by
  cases v <;> rfl

theorem OpcodeNibble.i2cSendByte (b : Byte) : OpcodeNibble.Statement (.i2cSendByte b) := by
  apply BitVec.eq_of_toNat_eq
  have hb := b.isLt
  simp only [encode, opcodeOf, bitField_toNat, toNat_append_eq, opcodeNibble, BitVec.toNat_ofNat]
  omega

theorem OpcodeNibble.i2cStop : OpcodeNibble.Statement .i2cStop := rfl

theorem OpcodeNibble.i2cWrite (addr val : Byte) : OpcodeNibble.Statement (.i2cWrite addr val) := by
  apply BitVec.eq_of_toNat_eq
  have ha := addr.isLt
  have hv := val.isLt
  simp only [encode, opcodeOf, bitField_toNat, toNat_append_eq, opcodeNibble, BitVec.toNat_ofNat]
  omega

theorem OpcodeNibble.spiSelect : OpcodeNibble.Statement .spiSelect := rfl

theorem OpcodeNibble.spiSendField (width : BitVec 5) (value : BitVec 16) :
    OpcodeNibble.Statement (.spiSendField width value) := by
  apply BitVec.eq_of_toNat_eq
  have hw := width.isLt
  have hv := value.isLt
  simp only [encode, opcodeOf, bitField_toNat, toNat_append_eq, opcodeNibble, BitVec.toNat_ofNat]
  omega

theorem OpcodeNibble.spiDeselect (pause : Pause) : OpcodeNibble.Statement (.spiDeselect pause) := by
  cases pause <;> rfl

theorem OpcodeNibble.spiWriteEnable : OpcodeNibble.Statement .spiWriteEnable := rfl

theorem OpcodeNibble.spiWrite (addr : BitVec 6) (data : BitVec 16) :
    OpcodeNibble.Statement (.spiWrite addr data) := by
  apply BitVec.eq_of_toNat_eq
  have ha := addr.isLt
  have hd := data.isLt
  simp only [encode, opcodeOf, bitField_toNat, toNat_append_eq, opcodeNibble, BitVec.toNat_ofNat]
  omega

theorem OpcodeNibble.spiWriteDisable : OpcodeNibble.Statement .spiWriteDisable := rfl

theorem OpcodeNibble.setFamily (fam : Family) : OpcodeNibble.Statement (.setFamily fam) := by
  cases fam <;> rfl

theorem OpcodeNibble.program (addr : Byte) (value : BitVec 16) :
    OpcodeNibble.Statement (.program addr value) := by
  apply BitVec.eq_of_toNat_eq
  have ha := addr.isLt
  have hv := value.isLt
  simp only [encode, opcodeOf, bitField_toNat, toNat_append_eq, opcodeNibble, BitVec.toNat_ofNat]
  omega

end Sys2Proof.Laws
end

