-- ==== Sys2Proof/Tests/Slice0.lean ====
section
/-! SUPPORT. Tests. Expected results come from spec/95_test_vectors.md, named in each comment, or from the rule cited.
Each is about one step on a small state. The second part shows, for each statement with hypotheses, a state and operands
that meet them all. -/

namespace Sys2Proof.Tests

open Sys2Proof.Machine Sys2Proof.Safety

-- The tests are checked one after another, which keeps the memory of the compile low.
set_option Elab.async false

/-! ## Well-formedness: each check refuses an ill-formed command (R73) -/

theorem test_wellFormed_refuses_width_zero : (Instr.spiSendField 0#5 0#16).wellFormed = false := by decide

theorem test_wellFormed_refuses_width_17 : (Instr.spiSendField 17#5 0#16).wellFormed = false := by decide

theorem test_wellFormed_refuses_wide_value : (Instr.spiSendField 3#5 8#16).wellFormed = false := by decide

/-! ## Decoding: words written out bit by bit from R71 (spec/95_test_vectors.md, section 2) -/

theorem test_decode_setLines : decode 0b0001_0000_0000_0000_0000_0000_0000_0101#32 = .ok (.setLines true false true) := by decide

theorem test_decode_i2cInit : decode 0b0010_0000_0000_0000_0000_0000_0000_0000#32 = .ok (.i2cInit) := by decide

theorem test_decode_i2cStart : decode 0b0011_0000_0000_0000_0000_0000_0000_0000#32 = .ok (.i2cStart) := by decide

theorem test_decode_i2cSendBit : decode 0b0100_0000_0000_0000_0000_0000_0000_0001#32 = .ok (.i2cSendBit true) := by decide

theorem test_decode_i2cSendByte : decode 0b0101_0000_0000_0000_0000_0000_1010_0000#32 = .ok (.i2cSendByte 0xA0#8) := by decide

theorem test_decode_i2cStop : decode 0b0110_0000_0000_0000_0000_0000_0000_0000#32 = .ok (.i2cStop) := by decide

theorem test_decode_i2cWrite : decode 0b0111_0000_0000_0000_0101_1010_1100_0011#32 = .ok (.i2cWrite 0x5A#8 0xC3#8) := by decide

theorem test_decode_spiSelect : decode 0b1000_0000_0000_0000_0000_0000_0000_0000#32 = .ok (.spiSelect) := by decide

theorem test_decode_spiSendField : decode 0b1001_0000_0000_0011_0000_0000_0000_0101#32 = .ok (.spiSendField 3#5 5#16) := by decide

theorem test_decode_spiDeselect : decode 0b1010_0000_0000_0000_0000_0000_0000_0001#32 = .ok (.spiDeselect .long) := by decide

theorem test_decode_spiWriteEnable : decode 0b1011_0000_0000_0000_0000_0000_0000_0000#32 = .ok (.spiWriteEnable) := by decide

theorem test_decode_spiWrite : decode 0b1100_0000_0010_1010_0001_0010_0011_0100#32 = .ok (.spiWrite 0x2A#6 0x1234#16) := by decide

theorem test_decode_spiWriteDisable : decode 0b1101_0000_0000_0000_0000_0000_0000_0000#32 = .ok (.spiWriteDisable) := by decide

theorem test_decode_setFamily : decode 0b1110_0000_0000_0000_0000_0000_0000_0001#32 = .ok (.setFamily .fourwire) := by decide

theorem test_decode_program : decode 0b1111_0000_0101_1010_0000_0000_1100_0011#32 = .ok (.program 0x5A#8 0x00C3#16) := by decide

/-- The twenty illegal words of spec/95_test_vectors.md, section 2. -/
theorem test_decode_illegal :
    [0x00000000#32, 0x0FFFFFFF#32, 0x10000008#32, 0x20000001#32, 0x40000002#32, 0x50000100#32, 0x70010000#32,
      0x80000001#32, 0x90000000#32, 0x90110000#32, 0x901F0001#32, 0x90030008#32, 0x90010002#32, 0x90200000#32,
      0xA0000002#32, 0xB0000001#32, 0xC0400000#32, 0xD8000000#32, 0xE0000002#32, 0xF1000000#32].all
      (fun w => (decode w).toOption.isNone) = true := by decide

/-- The four refusals, by name (R73). -/
theorem test_decode_refusals :
    decode 0x0FFFFFFF#32 = .error .reservedOpcode ∧ decode 0x10000008#32 = .error .reservedBits ∧
      decode 0x90110000#32 = .error .fieldWidth ∧ decode 0x90030008#32 = .error .fieldValue := by decide

/-- The largest operands of `SPI_WRITE` and `SPI_SEND_FIELD` (section 2). -/
theorem test_decode_largest :
    decode 0xC03FFFFF#32 = .ok (.spiWrite 0x3F#6 0xFFFF#16) ∧
      decode 0x9010FFFF#32 = .ok (.spiSendField 16#5 0xFFFF#16) := by decide

/-- An opcode-table word of 32 bits, and the refusal of the word of zeros. -/
theorem test_decodeTableWord :
    decodeTableWord 32 0xF05A00C3 = some (.program 0x5A#8 0x00C3#16) ∧ decodeTableWord 32 0 = none := by decide

/-! ## Small states -/

/-- A state with the parameters of R8, the placement of V-GPIO-2 (the written word equals the nibble) and a port bus that
accepts 300 writes. -/
def base : State where
  config := {}
  commands := []
  pc := 1
  lines := 0#32
  familyBit := true
  registerWritten := false
  family := none
  session := .none
  fault := { code := 0#3, pc := 0, cmd := 0#32 }
  trace := []
  bus := List.replicate 300 .accepted
  draws := 0

/-- The same with a family latched and a session. -/
def start (f : Family) (session : Session) : State := { base with family := some f, session := session }

/-- The same with one command issued, at `pc = 0`. -/
def issued (w : Word) (s : State) : State := { s with commands := [w], pc := 0 }

/-- The next state of a step or a command. -/
def nextOf (o : Host.Outcome State Fault Refusal) : Option State :=
  match o with
  | .next t => some t
  | .fault _ => none
  | .refused _ => none

/-- The line states a command appends to the trace. -/
def drawn (i : Instr) (s : State) : Option (List (BitVec 4)) :=
  (nextOf (exec i s)).map fun t => lineStates s.config (t.trace.drop s.trace.length)

/-- The record of faults, `pc` and the trace after a step. -/
def faultOf (s : State) : Option (FaultRecord × Nat × List Event) :=
  (nextOf (step s)).map fun t => (t.fault, t.pc, t.trace)

/-! ## One command each: the waveform (spec/95_test_vectors.md, section 3) -/

/-- V-GPIO-1. -/
theorem test_setLines_waveform : drawn (.setLines true false true) base = some [0xB#4] := by decide +kernel

/-- V-I2C-1. -/
theorem test_i2cInit_waveform :
    drawn .i2cInit (start .i2c .none) =
      some [0x9#4, 0xF#4] := by decide +kernel

/-- V-I2C-2. -/
theorem test_i2cStart_waveform :
    drawn .i2cStart (start .i2c .i2cReady) =
      some [0xD#4, 0x9#4] := by decide +kernel

/-- V-I2C-4. -/
theorem test_i2cSendBit_waveform :
    drawn (.i2cSendBit true) (start .i2c .i2cStarted) =
      some [0x3#4, 0x7#4, 0x3#4] := by decide +kernel

/-- V-I2C-12. -/
theorem test_i2cSendByte_waveform :
    drawn (.i2cSendByte 0xA5#8) (start .i2c .i2cStarted) =
      some [0x3#4, 0x7#4, 0x3#4, 0x1#4, 0x5#4, 0x1#4, 0x3#4, 0x7#4, 0x3#4, 0x1#4, 0x5#4, 0x1#4, 0x1#4, 0x5#4, 0x1#4,
      0x3#4, 0x7#4, 0x3#4, 0x1#4, 0x5#4, 0x1#4, 0x3#4, 0x7#4, 0x3#4, 0x1#4, 0x5#4, 0x1#4] := by decide +kernel

/-- V-I2C-13. -/
theorem test_i2cStop_waveform :
    drawn .i2cStop (start .i2c .i2cStarted) =
      some [0x9#4, 0xD#4, 0xF#4] := by decide +kernel

/-- V-I2C-14. -/
theorem test_i2cWrite_waveform :
    drawn (.i2cWrite 0x5A#8 0xC3#8) (start .i2c .none) =
      some [0x9#4, 0xF#4, 0xD#4, 0x9#4, 0x3#4, 0x7#4, 0x3#4, 0x1#4, 0x5#4, 0x1#4, 0x3#4, 0x7#4, 0x3#4, 0x1#4, 0x5#4,
      0x1#4, 0x1#4, 0x5#4, 0x1#4, 0x1#4, 0x5#4, 0x1#4, 0x1#4, 0x5#4, 0x1#4, 0x1#4, 0x5#4, 0x1#4, 0x1#4, 0x5#4,
      0x1#4, 0x1#4, 0x5#4, 0x1#4, 0x3#4, 0x7#4, 0x3#4, 0x1#4, 0x5#4, 0x1#4, 0x3#4, 0x7#4, 0x3#4, 0x3#4, 0x7#4,
      0x3#4, 0x1#4, 0x5#4, 0x1#4, 0x3#4, 0x7#4, 0x3#4, 0x1#4, 0x5#4, 0x1#4, 0x1#4, 0x5#4, 0x1#4, 0x3#4, 0x7#4,
      0x3#4, 0x3#4, 0x7#4, 0x3#4, 0x1#4, 0x5#4, 0x1#4, 0x1#4, 0x5#4, 0x1#4, 0x1#4, 0x5#4, 0x1#4, 0x1#4, 0x5#4,
      0x1#4, 0x3#4, 0x7#4, 0x3#4, 0x3#4, 0x7#4, 0x3#4, 0x1#4, 0x5#4, 0x1#4, 0x9#4, 0xD#4, 0xF#4] := by decide +kernel

/-- V-SPI-1. -/
theorem test_spiSelect_waveform :
    drawn .spiSelect (start .fourwire .none) =
      some [0x1#4, 0x9#4] := by decide +kernel

/-- V-SPI-3. -/
theorem test_spiSendField_waveform :
    drawn (.spiSendField 6#5 0x2A#16) (start .fourwire .spiSelected) =
      some [0xB#4, 0xF#4, 0xB#4, 0x9#4, 0xD#4, 0x9#4, 0xB#4, 0xF#4, 0xB#4, 0x9#4, 0xD#4, 0x9#4, 0xB#4, 0xF#4, 0xB#4,
      0x9#4, 0xD#4, 0x9#4] := by decide +kernel

/-- V-SPI-11. -/
theorem test_spiDeselect_waveform :
    drawn (.spiDeselect .long) (start .fourwire .spiSelected) =
      some [0x1#4] := by decide +kernel

/-- V-SPI-12. -/
theorem test_spiWriteEnable_waveform :
    drawn .spiWriteEnable (start .fourwire .none) =
      some [0x1#4, 0x9#4, 0xB#4, 0xF#4, 0xB#4, 0x9#4, 0xD#4, 0x9#4, 0x9#4, 0xD#4, 0x9#4, 0x9#4, 0xD#4, 0x9#4, 0x9#4,
      0xD#4, 0x9#4, 0x9#4, 0xD#4, 0x9#4, 0x9#4, 0xD#4, 0x9#4, 0x9#4, 0xD#4, 0x9#4, 0x9#4, 0xD#4, 0x9#4, 0x9#4,
      0xD#4, 0x9#4, 0x9#4, 0xD#4, 0x9#4, 0x9#4, 0xD#4, 0x9#4, 0x9#4, 0xD#4, 0x9#4, 0x9#4, 0xD#4, 0x9#4, 0x9#4,
      0xD#4, 0x9#4, 0x9#4, 0xD#4, 0x9#4, 0x9#4, 0xD#4, 0x9#4, 0x9#4, 0xD#4, 0x9#4, 0x9#4, 0xD#4, 0x9#4, 0x9#4,
      0xD#4, 0x9#4, 0x9#4, 0xD#4, 0x9#4, 0x9#4, 0xD#4, 0x9#4, 0x9#4, 0xD#4, 0x9#4, 0x9#4, 0xD#4, 0x9#4, 0x9#4,
      0xD#4, 0x9#4, 0x1#4] := by decide +kernel

/-- V-SPI-13. -/
theorem test_spiWrite_waveform :
    drawn (.spiWrite 0x2A#6 0x1234#16) (start .fourwire .none) =
      some [0x1#4, 0x9#4, 0xB#4, 0xF#4, 0xB#4, 0x9#4, 0xD#4, 0x9#4, 0xB#4, 0xF#4, 0xB#4, 0xB#4, 0xF#4, 0xB#4, 0x9#4,
      0xD#4, 0x9#4, 0xB#4, 0xF#4, 0xB#4, 0x9#4, 0xD#4, 0x9#4, 0xB#4, 0xF#4, 0xB#4, 0x9#4, 0xD#4, 0x9#4, 0x9#4,
      0xD#4, 0x9#4, 0x9#4, 0xD#4, 0x9#4, 0x9#4, 0xD#4, 0x9#4, 0xB#4, 0xF#4, 0xB#4, 0x9#4, 0xD#4, 0x9#4, 0x9#4,
      0xD#4, 0x9#4, 0xB#4, 0xF#4, 0xB#4, 0x9#4, 0xD#4, 0x9#4, 0x9#4, 0xD#4, 0x9#4, 0x9#4, 0xD#4, 0x9#4, 0xB#4,
      0xF#4, 0xB#4, 0xB#4, 0xF#4, 0xB#4, 0x9#4, 0xD#4, 0x9#4, 0xB#4, 0xF#4, 0xB#4, 0x9#4, 0xD#4, 0x9#4, 0x9#4,
      0xD#4, 0x9#4, 0x1#4] := by decide +kernel

/-- V-SPI-14. -/
theorem test_spiWriteDisable_waveform :
    drawn .spiWriteDisable (start .fourwire .none) =
      some [0x1#4, 0x9#4, 0xB#4, 0xF#4, 0xB#4, 0x9#4, 0xD#4, 0x9#4, 0x9#4, 0xD#4, 0x9#4, 0x9#4, 0xD#4, 0x9#4, 0x9#4,
      0xD#4, 0x9#4, 0x9#4, 0xD#4, 0x9#4, 0x9#4, 0xD#4, 0x9#4, 0x9#4, 0xD#4, 0x9#4, 0x9#4, 0xD#4, 0x9#4, 0x9#4,
      0xD#4, 0x9#4, 0x9#4, 0xD#4, 0x9#4, 0x9#4, 0xD#4, 0x9#4, 0x9#4, 0xD#4, 0x9#4, 0x9#4, 0xD#4, 0x9#4, 0x9#4,
      0xD#4, 0x9#4, 0x9#4, 0xD#4, 0x9#4, 0x9#4, 0xD#4, 0x9#4, 0x9#4, 0xD#4, 0x9#4, 0x9#4, 0xD#4, 0x9#4, 0x9#4,
      0xD#4, 0x9#4, 0x9#4, 0xD#4, 0x9#4, 0x9#4, 0xD#4, 0x9#4, 0x9#4, 0xD#4, 0x9#4, 0x9#4, 0xD#4, 0x9#4, 0x9#4,
      0xD#4, 0x9#4, 0x1#4] := by decide +kernel

/-- V-GLUE-8. -/
theorem test_program_waveform :
    drawn (.program 0x40#8 0x0012#16) (start .i2c .none) =
      some [0x9#4, 0xF#4, 0xD#4, 0x9#4, 0x3#4, 0x7#4, 0x3#4, 0x1#4, 0x5#4, 0x1#4, 0x3#4, 0x7#4, 0x3#4, 0x1#4, 0x5#4,
      0x1#4, 0x1#4, 0x5#4, 0x1#4, 0x1#4, 0x5#4, 0x1#4, 0x1#4, 0x5#4, 0x1#4, 0x1#4, 0x5#4, 0x1#4, 0x1#4, 0x5#4,
      0x1#4, 0x1#4, 0x5#4, 0x1#4, 0x3#4, 0x7#4, 0x3#4, 0x1#4, 0x5#4, 0x1#4, 0x1#4, 0x5#4, 0x1#4, 0x1#4, 0x5#4,
      0x1#4, 0x1#4, 0x5#4, 0x1#4, 0x1#4, 0x5#4, 0x1#4, 0x1#4, 0x5#4, 0x1#4, 0x1#4, 0x5#4, 0x1#4, 0x1#4, 0x5#4,
      0x1#4, 0x1#4, 0x5#4, 0x1#4, 0x1#4, 0x5#4, 0x1#4, 0x3#4, 0x7#4, 0x3#4, 0x1#4, 0x5#4, 0x1#4, 0x1#4, 0x5#4,
      0x1#4, 0x3#4, 0x7#4, 0x3#4, 0x1#4, 0x5#4, 0x1#4, 0x1#4, 0x5#4, 0x1#4, 0x9#4, 0xD#4, 0xF#4] := by decide +kernel

/-- V-I2C-16 (the other reading of C1). -/
theorem test_i2cSendByte_chipSelectHigh_waveform :
    drawn (.i2cSendByte 0xA5#8) ({ start .i2c .i2cStarted with config := { defaults := { i2cBitCs := true } } }) =
      some [0xB#4, 0xF#4, 0xB#4, 0x9#4, 0xD#4, 0x9#4, 0xB#4, 0xF#4, 0xB#4, 0x9#4, 0xD#4, 0x9#4, 0x9#4, 0xD#4, 0x9#4,
      0xB#4, 0xF#4, 0xB#4, 0x9#4, 0xD#4, 0x9#4, 0xB#4, 0xF#4, 0xB#4, 0x9#4, 0xD#4, 0x9#4] := by decide +kernel

/-- V-GPIO-2, second placement: `SET_LINES 1, 1, 0` writes `0x81020000`. -/
theorem test_setLines_secondPlacement :
    (nextOf (exec (.setLines true true false)
      { base with config := { board := { pCs := 24, pClk := 17, pDo := 5, pOe := 31, pFam := 0 } } })).map
        (fun t => (t.lines, t.session, t.pc)) = some (0x81020000#32, .none, 2) := by decide +kernel

/-- V-GPIO-3: no hold follows the write of `SET_LINES`. -/
theorem test_setLines_noHold :
    (nextOf (exec (.setLines true true true) base)).map State.trace = some [.write 0 0xF#32] := by decide +kernel

/-- V-I2C-1, V-I2C-2: SESSION and the holds. -/
theorem test_i2cStart_holds :
    (nextOf (exec .i2cStart (start .i2c .i2cReady))).map (fun t => (t.session, t.trace)) =
      some (.i2cStarted, [.write 0 0xD#32, .hold .i2cFrame, .write 0 0x9#32, .hold .i2cFrame]) := by decide +kernel

/-- V-SPI-1: the holds of `SPI_SELECT`. -/
theorem test_spiSelect_holds :
    (nextOf (exec .spiSelect (start .fourwire .none))).map (fun t => (t.session, t.trace)) =
      some (.spiSelected, [.write 0 0x1#32, .hold .spiPre, .write 0 0x9#32, .hold .spiBit]) := by decide +kernel

/-- V-SPI-10: `SHORT` leaves SESSION `NONE`. -/
theorem test_spiDeselect_short :
    (nextOf (exec (.spiDeselect .short) (start .fourwire .spiSelected))).map (fun t => (t.session, t.trace)) =
      some (.none, [.write 0 0x1#32, .hold .spiShort]) := by decide +kernel

/-- V-GLUE-1. -/
theorem test_setFamily :
    (nextOf (exec (.setFamily .fourwire) base)).map (fun t => (t.family, t.pc, t.trace)) =
      some (some .fourwire, 2, []) := by decide +kernel

/-- V-GLUE-4: 234 writes and as many holds. -/
theorem test_program_fourwire :
    (nextOf (exec (.program 0x2A#8 0x1234#16) (start .fourwire .none))).map
      (fun t => (t.lines, t.session, t.trace.length)) = some (0x1#32, .none, 468) := by decide +kernel

/-! ## Faults (spec/95_test_vectors.md, sections 3.1 to 3.5) -/

/-- V-GPIO-6: IllegalCommand, with no write. -/
theorem test_step_illegal :
    faultOf (issued 0x10000008#32 base) = some (⟨1#3, 0, 0x10000008#32⟩, 0, [.fault 1#3]) := by decide +kernel

/-- V-GLUE-2: a second `SET_FAMILY`. -/
theorem test_step_secondSetFamily :
    faultOf (issued 0xE0000000#32 (start .i2c .none)) =
      some (⟨2#3, 0, 0xE0000000#32⟩, 0, [.fault 2#3]) := by decide +kernel

/-- V-FLT-2: FamilyError comes before SequenceError. -/
theorem test_step_familyBeforeSession :
    faultOf (issued 0x30000000#32 (start .fourwire .none)) =
      some (⟨3#3, 0, 0x30000000#32⟩, 0, [.fault 3#3]) := by decide +kernel

/-- V-FLT-3: SequenceError comes before the operand range of `PROGRAM`. -/
theorem test_step_sessionBeforeRange :
    faultOf (issued 0xF0400012#32 (start .fourwire .spiSelected)) =
      some (⟨2#3, 0, 0xF0400012#32⟩, 0, [.fault 2#3]) := by decide +kernel

/-- V-GLUE-6 and V-GLUE-7: the operand range. -/
theorem test_step_programRange :
    faultOf (issued 0xF05A0100#32 (start .i2c .none)) = some (⟨1#3, 0, 0xF05A0100#32⟩, 0, [.fault 1#3]) ∧
      faultOf (issued 0xF0400012#32 (start .fourwire .none)) =
        some (⟨1#3, 0, 0xF0400012#32⟩, 0, [.fault 1#3]) := by decide +kernel

/-- V-I2C-29: the port bus fails the second write of `I2C_START`; its hold is not served. -/
theorem test_step_portWriteFailure :
    faultOf (issued 0x30000000#32 { start .i2c .i2cReady with bus := [.accepted, .failed] }) =
      some (⟨4#3, 0, 0x30000000#32⟩, 0, [.write 0 0xD#32, .hold .i2cFrame, .fault 4#3]) := by decide +kernel

/-- V-FLT-4: a halted engine takes no command (R209). -/
theorem test_step_halted :
    step { issued 0x20000000#32 (start .i2c .none) with fault := ⟨2#3, 1, 0x30000000#32⟩ } = .fault .halted := by rfl

/-! ## The first command after reset -/

/-- V-GLUE-1: `SET_FAMILY FOURWIRE` from reset. -/
theorem test_reset_setFamily :
    (nextOf (step (State.reset.withFetchWord 32 0xE0000001))).map (fun t => (t.family, t.pc, t.trace)) =
      some (some .fourwire, 1, []) := by decide +kernel

/-- V-FLT-5: `I2C_WRITE` before any `SET_FAMILY`. -/
theorem test_reset_familyError :
    faultOf (State.reset.withFetchWord 32 0x70005AC3) = some (⟨3#3, 0, 0x70005AC3#32⟩, 0, [.fault 3#3]) := by
  decide +kernel

/-! ## The boundary -/

/-- R29: before any write, a read gives the status bit; here it means the 4-wire family (`FAM_POL = 1`). -/
theorem test_readRegister_family : familyOfRegister base.config.board 0x10#32 = .fourwire := by decide

/-- R29, R230: after a write, and after a reset that follows it, a read of the register is a draw at every bit. -/
theorem test_readRegister_afterReset :
    ((nextOf (exec (.setLines true true true) base)).map fun t => (resetEngine [] t).registerWritten) = some true ∧
      (readRegister (resetEngine [] { base with registerWritten := true })).1 = Config.drawReadback 1 :=
  ⟨by decide +kernel, rfl⟩

/-- R22: no line has a level while output_enable is 0; after `SET_LINES 1, 0, 1` each has its own. -/
theorem test_lineLevel :
    [Line.chipSelect, .clock, .dataOut].map (lineLevel base) = [none, none, none] ∧
      ((nextOf (exec (.setLines true false true) base)).map fun t =>
        [Line.chipSelect, .clock, .dataOut].map (lineLevel t)) =
        some [some true, some false, some true] := by decide +kernel

/-- V-GLUE-9: a fault inside a session is a faulted end and, the session being open, an incomplete session (R249). -/
theorem test_end_faultInSession :
    ((nextOf (exec (.program 0x5A#8 0x00C3#16) (start .i2c .i2cReady))).map fun t =>
      (goodEnd t, faultedEnd t, incompleteSession t)) = some (false, true, true) := by decide +kernel

/-- R46: `GPIO_ADDR mod 4 = 2` is refused. -/
theorem test_powerOn_misaligned : powerOn {} { gpioOffset := 2 } = .refused .illegalConfiguration := by rfl

/-- The assembler forms of P4, pc 3 and 4 (R75). -/
theorem test_assemble :
    (assemble ⟨"SPI_FIELD6", [.number 1]⟩).map encode = some 0x90060001#32 ∧
      (assemble ⟨"SPI_FIELD16", [.number 0xBEEF]⟩).map encode = some 0x9010BEEF#32 ∧
      readNumber "0xBEEF".toList = some 0xBEEF := by decide

/-- P4: a Write frame built by hand has no Write-Enable before it; with one, composite or built by hand, it has (R245). -/
theorem test_writeEnabledFirst :
    writeEnabledFirst {} [.setFamily .fourwire, .spiSelect, .spiSendField 3#5 5#16, .spiSendField 6#5 1#16,
        .spiSendField 16#5 0xBEEF#16, .spiDeselect .long] = false ∧
      writeEnabledFirst {} [.setFamily .fourwire, .spiWriteEnable, .spiSelect, .spiSendField 3#5 5#16,
        .spiSendField 6#5 1#16, .spiSendField 16#5 0xBEEF#16, .spiDeselect .long] = true ∧
      writeEnabledFirst {} [.spiSelect, .spiSendField 3#5 4#16, .spiSendField 6#5 0#16, .spiSendField 16#5 0#16,
        .spiDeselect .short, .spiWrite 1#6 2#16] = true := by decide +kernel

/-- A Write frame built by hand and closed `SHORT` breaks R244; closed `LONG` it does not. -/
theorem test_longPauseAfterWrite :
    ((closedSessions [] [.spiSelect, .spiSendField 3#5 5#16, .spiSendField 6#5 1#16, .spiSendField 16#5 0xBEEF#16,
        .spiDeselect .short]).all (longPauseAfterWrite {})) = false ∧
      ((closedSessions [] [.spiSelect, .spiSendField 3#5 5#16, .spiSendField 6#5 1#16, .spiSendField 16#5 0xBEEF#16,
        .spiDeselect .long]).all (longPauseAfterWrite {})) = true := by decide

/-! ## Witnesses: for each statement with hypotheses, a state and operands that meet them all -/

/-- The port bus of the small states accepts up to 300 writes. -/
theorem start_accepts (f : Family) (session : Session) (n : Nat) (h : n ≤ 300) : (start f session).accepts n := by
  intro k hk
  have hb : (start f session).bus[k]? = some .accepted := by
    simp only [start, base, List.getElem?_replicate, if_pos (show k < 300 by omega)]
  simp only [State.answer, hb]

theorem witness_DecodeInvertsEncode :
    (Instr.spiSendField 1#5 1#16).wellFormed = true ∧ (Instr.spiSendField 16#5 0xFFFF#16).wellFormed = true ∧
      (Instr.program 0xFF#8 0xFFFF#16).wellFormed = true := by decide

theorem witness_EncodeInvertsDecode :
    decode 0x9010FFFF#32 = .ok (.spiSendField 16#5 0xFFFF#16) ∧
      decode 0xF0FFFFFF#32 = .ok (.program 0xFF#8 0xFFFF#16) := by decide

/-- A word for each row, the fields at their largest; for the field command the least and the largest width. -/
theorem witness_MatchingWordsDecodeToTheirRow :
    0x0FFFFFFF#32 &&& 0xF0000000#32 = 0x00000000#32 ∧ 0x10000007#32 &&& 0xFFFFFFF8#32 = 0x10000000#32 ∧
    0x20000000#32 &&& 0xFFFFFFFF#32 = 0x20000000#32 ∧ 0x30000000#32 &&& 0xFFFFFFFF#32 = 0x30000000#32 ∧
    0x40000001#32 &&& 0xFFFFFFFE#32 = 0x40000000#32 ∧ 0x500000FF#32 &&& 0xFFFFFF00#32 = 0x50000000#32 ∧
    0x60000000#32 &&& 0xFFFFFFFF#32 = 0x60000000#32 ∧ 0x7000FFFF#32 &&& 0xFFFF0000#32 = 0x70000000#32 ∧
    0x80000000#32 &&& 0xFFFFFFFF#32 = 0x80000000#32 ∧
    (0x90010001#32 &&& 0xFFE00000#32 = 0x90000000#32 ∧ 1 ≤ (BitVec.extractLsb' 16 5 0x90010001#32).toNat ∧
      (BitVec.extractLsb' 16 5 0x90010001#32).toNat ≤ 16 ∧
      (BitVec.extractLsb' 0 16 0x90010001#32).toNat < 2 ^ (BitVec.extractLsb' 16 5 0x90010001#32).toNat) ∧
    (0x9010FFFF#32 &&& 0xFFE00000#32 = 0x90000000#32 ∧ 1 ≤ (BitVec.extractLsb' 16 5 0x9010FFFF#32).toNat ∧
      (BitVec.extractLsb' 16 5 0x9010FFFF#32).toNat ≤ 16 ∧
      (BitVec.extractLsb' 0 16 0x9010FFFF#32).toNat < 2 ^ (BitVec.extractLsb' 16 5 0x9010FFFF#32).toNat) ∧
    0xA0000001#32 &&& 0xFFFFFFFE#32 = 0xA0000000#32 ∧ 0xB0000000#32 &&& 0xFFFFFFFF#32 = 0xB0000000#32 ∧
    0xC03FFFFF#32 &&& 0xFFC00000#32 = 0xC0000000#32 ∧ 0xD0000000#32 &&& 0xFFFFFFFF#32 = 0xD0000000#32 ∧
    0xE0000001#32 &&& 0xFFFFFFFE#32 = 0xE0000000#32 ∧ 0xF0FFFFFF#32 &&& 0xFF000000#32 = 0xF0000000#32 := by decide

/-- The four clauses of R73, each where it meets the legal words, and a legal word at either end. -/
theorem witness_IllegalWordsRaiseIllegalCommand :
    (Running (issued 0x0FFFFFFF#32 base) ∧ (issued 0x0FFFFFFF#32 base).fetch = some 0x0FFFFFFF#32 ∧ illegalWord 0x0FFFFFFF#32 = true) ∧
    (Running (issued 0x10000008#32 base) ∧ (issued 0x10000008#32 base).fetch = some 0x10000008#32 ∧ illegalWord 0x10000008#32 = true) ∧
    (Running (issued 0x90000000#32 base) ∧ (issued 0x90000000#32 base).fetch = some 0x90000000#32 ∧ illegalWord 0x90000000#32 = true) ∧
    (Running (issued 0x90110000#32 base) ∧ (issued 0x90110000#32 base).fetch = some 0x90110000#32 ∧ illegalWord 0x90110000#32 = true) ∧
    (Running (issued 0x90030008#32 base) ∧ (issued 0x90030008#32 base).fetch = some 0x90030008#32 ∧ illegalWord 0x90030008#32 = true) ∧
    illegalWord 0x90010001#32 = false ∧ illegalWord 0x9010FFFF#32 = false :=
  ⟨⟨rfl, rfl, by decide +kernel⟩, ⟨rfl, rfl, by decide +kernel⟩, ⟨rfl, rfl, by decide +kernel⟩,
    ⟨rfl, rfl, by decide +kernel⟩, ⟨rfl, rfl, by decide +kernel⟩, by decide +kernel⟩

/-- A state inside a session, after one write of the engine. -/
def running : State :=
  { start .i2c .i2cStarted with commands := [0x40000001#32], pc := 0, lines := 0x9#32, registerWritten := true, trace := [.write 0 0x9#32] }

/-- The same halted by a fault. -/
def halted : State :=
  { running with fault := ⟨2#3, 0, 0x40000001#32⟩, trace := [.write 0 0x9#32, .fault 2#3] }

theorem running_consistent : Consistent running where
  codeKnown := by decide
  writesComposed := by
    intro a w h
    have h' : a = 0 ∧ w = 0x9#32 := by simpa [running] using h
    exact ⟨h'.1, true, false, false, h'.2⟩
  linesLastWritten := fun _ w h => by simpa [running, writtenWords] using h
  oneFault := by decide
  faultLast := fun h => absurd rfl h
  faultRecorded := fun h => absurd rfl h
  twoWireSession := fun _ => rfl
  fourWireSession := fun h => nomatch h
  writesNoted := fun _ => rfl
  pcIssued := by decide

theorem halted_consistent : Consistent halted where
  codeKnown := by decide
  writesComposed := by
    intro a w h
    have h' : a = 0 ∧ w = 0x9#32 := by simpa [halted] using h
    exact ⟨h'.1, true, false, false, h'.2⟩
  linesLastWritten := fun _ w h => by simpa [halted, running, writtenWords] using h
  oneFault := by decide
  faultLast := fun _ => rfl
  faultRecorded := fun _ => ⟨rfl, rfl⟩
  twoWireSession := fun _ => rfl
  fourWireSession := fun h => nomatch h
  writesNoted := fun _ => rfl
  pcIssued := by decide

theorem witness_StepKeepsConsistent : Consistent running ∧ ∃ t, step running = .next t :=
  ⟨running_consistent, _, rfl⟩

theorem witness_StepExecutesTheDecodedCommand :
    Running running ∧ running.fetch = some 0x40000001#32 ∧ decode 0x40000001#32 = .ok (.i2cSendBit true) := by decide

theorem witness_EngineWaitsForACommand : Running base ∧ base.fetch = none := by decide

theorem witness_HaltedEngineTakesNoCommand : ¬ Running halted := by decide

theorem witness_EveryRunningStepAnswersANextState : Running base ∧ Running running := by decide

theorem witness_SetLinesMakesOneWrite :
    Running base ∧ base.session = .none ∧ base.accepts 1 := by decide

theorem witness_I2cInitDrivesLowThenHigh :
    Running (start .i2c .none) ∧ (start .i2c .none).family = some .i2c ∧ (start .i2c .none).session = .none ∧
      (start .i2c .none).accepts 2 :=
  ⟨rfl, rfl, rfl, start_accepts _ _ _ (by decide)⟩

theorem witness_I2cStartLowersDataThenClock :
    Running (start .i2c .i2cReady) ∧ (start .i2c .i2cReady).family = some .i2c ∧
      (start .i2c .i2cReady).session = .i2cReady ∧ (start .i2c .i2cReady).accepts 2 :=
  ⟨rfl, rfl, rfl, start_accepts _ _ _ (by decide)⟩

theorem witness_I2cSendBitPulsesTheClock :
    Running (start .i2c .i2cStarted) ∧ (start .i2c .i2cStarted).family = some .i2c ∧
      (start .i2c .i2cStarted).session = .i2cStarted ∧ (start .i2c .i2cStarted).accepts 3 :=
  ⟨rfl, rfl, rfl, start_accepts _ _ _ (by decide)⟩

theorem witness_I2cSendByteSendsTheByteFrame :
    Running (start .i2c .i2cStarted) ∧ (start .i2c .i2cStarted).family = some .i2c ∧
      (start .i2c .i2cStarted).session = .i2cStarted ∧ (start .i2c .i2cStarted).accepts 27 :=
  ⟨rfl, rfl, rfl, start_accepts _ _ _ (by decide)⟩

theorem witness_I2cStopRaisesDataWithClockHigh :
    Running (start .i2c .i2cStarted) ∧ (start .i2c .i2cStarted).family = some .i2c ∧
      (start .i2c .i2cStarted).session = .i2cStarted ∧ (start .i2c .i2cStarted).accepts 3 :=
  witness_I2cSendBitPulsesTheClock

theorem witness_I2cWriteSendsTheTransaction :
    Running (start .i2c .none) ∧ (start .i2c .none).family = some .i2c ∧ (start .i2c .none).session = .none ∧
      (start .i2c .none).accepts 88 :=
  ⟨rfl, rfl, rfl, start_accepts _ _ _ (by decide)⟩

theorem witness_SpiSelectDeselectsThenAsserts :
    Running (start .fourwire .none) ∧ (start .fourwire .none).family = some .fourwire ∧
      (start .fourwire .none).session = .none ∧ (start .fourwire .none).accepts 2 :=
  ⟨rfl, rfl, rfl, start_accepts _ _ _ (by decide)⟩

/-- The least and the largest width, each with its largest value. -/
theorem witness_SpiSendFieldSendsTheBits :
    Running (start .fourwire .spiSelected) ∧
      (1 ≤ (1#5).toNat ∧ (1#5).toNat ≤ 16 ∧ (1#16).toNat < 2 ^ (1#5).toNat) ∧
      (1 ≤ (16#5).toNat ∧ (16#5).toNat ≤ 16 ∧ (0xFFFF#16).toNat < 2 ^ (16#5).toNat) ∧
      (start .fourwire .spiSelected).family = some .fourwire ∧
      (start .fourwire .spiSelected).session = .spiSelected ∧
      (start .fourwire .spiSelected).accepts (3 * (1#5).toNat) ∧
      (start .fourwire .spiSelected).accepts (3 * (16#5).toNat) :=
  ⟨rfl, by decide, by decide, rfl, rfl, start_accepts _ _ _ (by decide),
    start_accepts _ _ _ (by decide)⟩

theorem witness_SpiDeselectPausesShortOrLong :
    Running (start .fourwire .spiSelected) ∧ (start .fourwire .spiSelected).family = some .fourwire ∧
      (start .fourwire .spiSelected).session = .spiSelected ∧ (start .fourwire .spiSelected).accepts 1 :=
  ⟨rfl, rfl, rfl, start_accepts _ _ _ (by decide)⟩

/-- A state that meets the hypotheses of every statement about a whole 4-wire command. -/
theorem witness_fourWireIdle :
    Running (start .fourwire .none) ∧ (start .fourwire .none).family = some .fourwire ∧
      (start .fourwire .none).session = .none ∧ (start .fourwire .none).accepts 78 :=
  ⟨rfl, rfl, rfl, start_accepts _ _ _ (by decide)⟩

theorem witness_SpiWriteEnableSendsItsFrame :
    Running (start .fourwire .none) ∧ (start .fourwire .none).family = some .fourwire ∧
      (start .fourwire .none).session = .none ∧ (start .fourwire .none).accepts 78 := witness_fourWireIdle

theorem witness_SpiWriteSendsItsFrame :
    Running (start .fourwire .none) ∧ (start .fourwire .none).family = some .fourwire ∧
      (start .fourwire .none).session = .none ∧ (start .fourwire .none).accepts 78 := witness_fourWireIdle

theorem witness_SpiWriteDisableSendsItsFrame :
    Running (start .fourwire .none) ∧ (start .fourwire .none).family = some .fourwire ∧
      (start .fourwire .none).session = .none ∧ (start .fourwire .none).accepts 78 := witness_fourWireIdle

theorem witness_SetFamilyLatchesTheFamily :
    Running base ∧ base.family = none ∧ base.session = .none := by decide

theorem witness_ProgramOnTwoWireSendsTheTransaction :
    Running (start .i2c .none) ∧ (start .i2c .none).family = some .i2c ∧ (start .i2c .none).session = .none ∧
      (0xFF#16).toNat < 256 ∧ (start .i2c .none).accepts 88 :=
  ⟨rfl, rfl, rfl, by decide, start_accepts _ _ _ (by decide)⟩

theorem witness_ProgramOnFourWireSendsThreeFrames :
    Running (start .fourwire .none) ∧ (start .fourwire .none).family = some .fourwire ∧
      (start .fourwire .none).session = .none ∧ (0x3F#8).toNat < 64 ∧
      (start .fourwire .none).accepts 234 :=
  ⟨rfl, rfl, rfl, by decide, start_accepts _ _ _ (by decide)⟩

/-- `UNSET`, and the other family either way. -/
theorem witness_WrongFamilyRaisesFamilyError :
    (Running base ∧ Instr.wellFormed (.program 0#8 0#16) = true ∧
      familyAdmits (.program 0#8 0#16) base.family = false) ∧
    (Running (start .i2c .none) ∧ Instr.wellFormed .spiSelect = true ∧
      familyAdmits .spiSelect (start .i2c .none).family = false) ∧
    (Running (start .fourwire .none) ∧ Instr.wellFormed .i2cInit = true ∧
      familyAdmits .i2cInit (start .fourwire .none).family = false) := by decide

/-- A command outside its session, and a second `SET_FAMILY` with the session as it should be. -/
theorem witness_WrongSessionRaisesSequenceError :
    (Running (start .i2c .none) ∧ Instr.wellFormed .i2cStart = true ∧
      familyAdmits .i2cStart (start .i2c .none).family = true ∧
      (start .i2c .none).session ≠ acceptedSession .i2cStart) ∧
    (Running (start .i2c .none) ∧ Instr.wellFormed (.setFamily .i2c) = true ∧
      familyAdmits (.setFamily .i2c) (start .i2c .none).family = true ∧
      (start .i2c .none).session = acceptedSession (.setFamily .i2c) ∧ (start .i2c .none).family ≠ none) := by decide

/-- The least operand out of range, under either family. -/
theorem witness_ProgramOutOfRangeRaisesIllegalCommand :
    (Running (start .i2c .none) ∧ (start .i2c .none).session = .none ∧
      (start .i2c .none).family = some .i2c ∧ 256 ≤ (0x100#16).toNat) ∧
    (Running (start .fourwire .none) ∧ (start .fourwire .none).session = .none ∧
      (start .fourwire .none).family = some .fourwire ∧ 64 ≤ (0x40#8).toNat) := by decide

/-- The port bus accepts one write of `I2C_START` and fails the other. -/
def unlucky : State := { start .i2c .i2cReady with bus := [.accepted, .failed] }

/-- A failed write, and a fault raised before any write. -/
theorem witness_FaultsArePrecise :
    (Running unlucky ∧ ∃ t, exec .i2cStart unlucky = .next t ∧ ¬ Running t) ∧
      (Running base ∧ ∃ t, exec .i2cStart base = .next t ∧ ¬ Running t) :=
  ⟨⟨rfl, _, rfl, by decide +kernel⟩, rfl, _, rfl, by decide +kernel⟩

/-- The failed write is the last of the command; and the only one, of a command without a hold. -/
theorem witness_FailedWriteStopsTheCommand :
    (Running unlucky ∧ ∃ t events,
      exec .i2cStart { unlucky with bus := List.replicate 234 .accepted } = .next t ∧ Running t ∧
      t.trace = unlucky.trace ++ events ∧ 1 < (writtenWords events).length ∧ unlucky.accepts 1 ∧
      unlucky.answer 1 = .failed) ∧
    (Running { base with bus := [.failed] } ∧ ∃ t events,
      exec (.setLines true true true) { base with bus := List.replicate 234 .accepted } = .next t ∧ Running t ∧
      t.trace = ({ base with bus := [.failed] } : State).trace ++ events ∧ 0 < (writtenWords events).length ∧
      ({ base with bus := [.failed] } : State).accepts 0 ∧
      ({ base with bus := [.failed] } : State).answer 0 = .failed) :=
  ⟨⟨rfl, _, _, rfl, rfl, rfl, by decide, by decide, rfl⟩, rfl, _, _, rfl, rfl, rfl, by decide, by decide, rfl⟩

/-- A step that completes, and one that faults. -/
theorem witness_PcAdvancesByOneOrStays :
    (running.fetch = some 0x40000001#32 ∧ ∃ t, step running = .next t ∧ Running t) ∧
      ((issued 0#32 base).fetch = some 0#32 ∧ ∃ t, step (issued 0#32 base) = .next t ∧ ¬ Running t) :=
  ⟨⟨rfl, _, rfl, rfl⟩, rfl, _, rfl, by decide +kernel⟩

theorem witness_FamilyIsLatchedOnce :
    ∃ t, step (issued 0xE0000001#32 base) = .next t ∧ t.family ≠ (issued 0xE0000001#32 base).family :=
  ⟨_, rfl, by decide +kernel⟩

/-- A command that completes, and one that faults. -/
theorem witness_SessionFollowsTheTable :
    (Running running ∧ ∃ t, exec .i2cStop running = .next t ∧ Running t) ∧
      (Running base ∧ ∃ t, exec .i2cStop base = .next t ∧ ¬ Running t) :=
  ⟨⟨rfl, _, rfl, rfl⟩, rfl, _, rfl, by decide +kernel⟩

theorem witness_StepNeverChangesParametersOrStream : ∃ t, step running = .next t := ⟨_, rfl⟩

theorem witness_TraceOnlyGrows : ∃ t, step running = .next t ∧ t.trace ≠ running.trace :=
  ⟨_, rfl, by decide +kernel⟩

theorem witness_OutputEnableStaysAsserted :
    Consistent running ∧ running.fault.code ≠ 4#3 ∧ writtenWords running.trace ≠ [] :=
  ⟨running_consistent, by decide, by decide⟩

theorem witness_TwoWireTransactionMakes88Writes :
    Running (start .i2c .none) ∧ (start .i2c .none).family = some .i2c ∧ (start .i2c .none).session = .none ∧
      (start .i2c .none).accepts 88 := witness_I2cWriteSendsTheTransaction

theorem witness_FourWireCommandsMake78Writes :
    Running (start .fourwire .none) ∧ (start .fourwire .none).family = some .fourwire ∧
      (start .fourwire .none).session = .none ∧ (start .fourwire .none).accepts 78 := witness_fourWireIdle

theorem witness_ByteSamplesAreMsbFirst :
    Running (start .i2c .i2cStarted) ∧ (start .i2c .i2cStarted).family = some .i2c ∧
      (start .i2c .i2cStarted).session = .i2cStarted ∧ (start .i2c .i2cStarted).accepts 27 :=
  witness_I2cSendByteSendsTheByteFrame

theorem witness_TransactionSamplesAreMsbFirst :
    Running (start .i2c .none) ∧ (start .i2c .none).family = some .i2c ∧ (start .i2c .none).session = .none ∧
      (start .i2c .none).accepts 88 := witness_I2cWriteSendsTheTransaction

/-- The second part; the first has the hypotheses of `witness_SpiSendFieldSendsTheBits`. -/
theorem witness_FieldSamplesAreMsbFirst :
    Running (start .fourwire .none) ∧ (0x1000000#25 : BitVec 25) =
        (start .fourwire .none).config.defaults.spiOpcWen ++ (start .fourwire .none).config.defaults.spiAddrWen
          ++ (start .fourwire .none).config.defaults.spiDataWen ∧
      (0x16A1234#25 : BitVec 25) =
        (start .fourwire .none).config.defaults.spiOpcWrite ++ 0x2A#6 ++ 0x1234#16 ∧
      (start .fourwire .none).family = some .fourwire ∧ (start .fourwire .none).session = .none ∧
      (start .fourwire .none).accepts 78 :=
  ⟨rfl, rfl, rfl, rfl, rfl, start_accepts _ _ _ (by decide)⟩

theorem witness_ChipSelectHeldThroughACommand :
    Running (start .fourwire .none) ∧ (start .fourwire .none).family = some .fourwire ∧
      (start .fourwire .none).session = .none ∧ (start .fourwire .none).accepts 78 := witness_fourWireIdle

/-- Also of the second part of `CompositesEqualTheirPrimitives`. -/
theorem witness_WriteEnableEqualsWriteDisable :
    Running (start .fourwire .none) ∧ (start .fourwire .none).family = some .fourwire ∧
      (start .fourwire .none).session = .none ∧ (start .fourwire .none).accepts 78 ∧
      (start .fourwire .none).config.defaults.spiOpcWen = 4#3 ∧
      (start .fourwire .none).config.defaults.spiOpcWrite = 5#3 ∧
      (start .fourwire .none).config.defaults.spiOpcWds = 4#3 ∧
      (start .fourwire .none).config.defaults.spiAddrWen = 0#6 ∧
      (start .fourwire .none).config.defaults.spiAddrWds = 0#6 ∧
      (start .fourwire .none).config.defaults.spiDataWen = 0#16 ∧
      (start .fourwire .none).config.defaults.spiDataWds = 0#16 :=
  ⟨rfl, rfl, rfl, start_accepts _ _ _ (by decide), rfl, rfl, rfl, rfl, rfl, rfl, rfl⟩

theorem witness_CompositesEqualTheirPrimitives :
    (Running (start .i2c .none) ∧ (start .i2c .none).family = some .i2c ∧ (start .i2c .none).session = .none ∧
      (start .i2c .none).accepts 88) ∧
    (Running (start .fourwire .none) ∧ (start .fourwire .none).family = some .fourwire ∧
      (start .fourwire .none).session = .none ∧ (start .fourwire .none).accepts 78 ∧
      (start .fourwire .none).config.defaults.spiOpcWen = 4#3 ∧
      (start .fourwire .none).config.defaults.spiOpcWrite = 5#3 ∧
      (start .fourwire .none).config.defaults.spiOpcWds = 4#3 ∧
      (start .fourwire .none).config.defaults.spiAddrWen = 0#6 ∧
      (start .fourwire .none).config.defaults.spiAddrWds = 0#6 ∧
      (start .fourwire .none).config.defaults.spiDataWen = 0#16 ∧
      (start .fourwire .none).config.defaults.spiDataWds = 0#16) :=
  ⟨witness_I2cWriteSendsTheTransaction, witness_WriteEnableEqualsWriteDisable⟩

theorem witness_MinimumDurations :
    (Running (start .i2c .none) ∧ (start .i2c .none).family = some .i2c ∧ (start .i2c .none).session = .none ∧
      (start .i2c .none).accepts 88) ∧
    (Running (start .fourwire .none) ∧ (start .fourwire .none).family = some .fourwire ∧
      (start .fourwire .none).session = .none ∧ (start .fourwire .none).accepts 78) :=
  ⟨witness_I2cWriteSendsTheTransaction, witness_fourWireIdle⟩

theorem witness_ProgramEqualsTheEnginesCommands :
    (Running (start .i2c .none) ∧ (start .i2c .none).family = some .i2c ∧ (start .i2c .none).session = .none ∧
      (0xFF#16).toNat < 256 ∧ (start .i2c .none).accepts 88) ∧
    (Running (start .fourwire .none) ∧ (start .fourwire .none).family = some .fourwire ∧
      (start .fourwire .none).session = .none ∧ (0x3F#8).toNat < 64 ∧ (start .fourwire .none).accepts 234) :=
  ⟨witness_ProgramOnTwoWireSendsTheTransaction, witness_ProgramOnFourWireSendsThreeFrames⟩

/-- `GPIO_ADDR` 1 above a multiple of 4, and a legal configuration. -/
theorem witness_MisalignedConfigurationIsRefused :
    ({ gpioOffset := 1 } : Board).gpioAddr % 4 ≠ 0 ∧ legalParameters {} { gpioOffset := 4 } = true := by decide

theorem witness_HostReadsTheFamilyBeforeAnyWrite : base.registerWritten = false := rfl

/-- Parameters that meet the constraints, and parameters that break one. -/
theorem witness_LegalConfigurationPowersOn :
    legalParameters {} { gpioOffset := 4 } = true ∧ legalParameters {} { pFam := 0 } = false := by decide

/-- A step that appends a write, one that records PortWriteFailure, and a state that has the note. -/
theorem witness_WrittenRegisterIsNeverForgotten :
    (∃ t, step (issued 0x10000007#32 base) = .next t ∧
      writtenWords t.trace ≠ writtenWords (issued 0x10000007#32 base).trace) ∧
    (∃ t, step (issued 0x30000000#32 unlucky) = .next t ∧ t.fault.code = 4#3) ∧
    running.registerWritten = true ∧ ∃ t, step running = .next t :=
  ⟨⟨_, rfl, by decide +kernel⟩, ⟨_, rfl, by decide +kernel⟩, rfl, _, rfl⟩

/-- An end of each kind, and a fault in an open session. -/
theorem witness_BadEndsAreFaultsOrOpenSessions :
    (runEnded base = true ∧ runEnded (start .i2c .i2cReady) = true ∧ runEnded halted = true) ∧
    (Running running ∧ running.session ≠ .none ∧ ∃ t, exec .i2cInit running = .next t ∧ ¬ Running t) :=
  ⟨by decide, rfl, by decide, _, rfl, by decide +kernel⟩

theorem witness_HandBuiltFramesCountAsTheirCommands :
    ({} : Defaults).spiOpcWen ≠ ({} : Defaults).spiOpcWrite := by decide

end Sys2Proof.Tests
end

section
/-! SUPPORT. What the two states of a drive list leave unchanged, and what one command and one step can do: `Effect` lists
the outcomes of a command, `exec_effect` says there are no others, and `step_cases` adds the waiting engine and the
illegal word. -/

namespace Sys2Proof.Machine

open Sys2Proof.Safety

/-! ## Drives change LINES, the trace and the port bus alone -/

section Drives

variable (ds : List Drive) (s : State)

@[simp] theorem driven_config : (driven ds s).config = s.config := rfl
@[simp] theorem driven_commands : (driven ds s).commands = s.commands := rfl
@[simp] theorem driven_pc : (driven ds s).pc = s.pc := rfl
@[simp] theorem driven_familyBit : (driven ds s).familyBit = s.familyBit := rfl
@[simp] theorem driven_family : (driven ds s).family = s.family := rfl
@[simp] theorem driven_session : (driven ds s).session = s.session := rfl
@[simp] theorem driven_fault : (driven ds s).fault = s.fault := rfl

@[simp] theorem broken_config : (broken ds s).config = s.config := rfl
@[simp] theorem broken_commands : (broken ds s).commands = s.commands := rfl
@[simp] theorem broken_pc : (broken ds s).pc = s.pc := rfl
@[simp] theorem broken_familyBit : (broken ds s).familyBit = s.familyBit := rfl
@[simp] theorem broken_family : (broken ds s).family = s.family := rfl
@[simp] theorem broken_session : (broken ds s).session = s.session := rfl
@[simp] theorem broken_fault : (broken ds s).fault = s.fault := rfl

end Drives

/-- No cause has the code of "no fault" (R202). -/
theorem FaultCause.code_ne_zero (cause : FaultCause) : cause.code ≠ 0#3 := by
  cases cause <;> decide

/-! ## What a command can do -/

/-- The line changes of a command under the FAMILY latch; `SET_FAMILY` has none. -/
def commandDrives (c : Configuration) (latch : Option Family) : Instr → List Drive
  | .setLines cs clk dataOut => [⟨cs, clk, dataOut, Option.none⟩]
  | .i2cInit => initDrives
  | .i2cStart => startDrives
  | .i2cSendBit v => sendBit c v
  | .i2cSendByte b => sendByte c b
  | .i2cStop => stopDrives
  | .i2cWrite addr val => writeTransaction c addr val
  | .spiSelect => selectDrives
  | .spiSendField width value => sendField width.toNat value
  | .spiDeselect pause => deselectDrives (holdOfPause pause)
  | .spiWriteEnable => writeEnableDrives c
  | .spiWrite addr data => writeDrives c addr data
  | .spiWriteDisable => writeDisableDrives c
  | .setFamily _ => []
  | .program addr value =>
      match latch with
      | some f => programDrives c addr value f
      | Option.none => []

/-- A command's own pseudocode, behind the common checks of R201. -/
def commandBody (c : Configuration) (latch : Option Family) : Instr → State → State
  | .setFamily fam => latchFamily fam
  | .program addr value => runProgram addr value
  | i => transmit i (commandDrives c latch i) (resultSession i)

/-- Every command is its pseudocode behind the common checks, with the FAMILY it needs and the SESSION it accepts (R25,
R201, R204). -/
theorem exec_eq_command (i : Instr) (s : State) :
    ∃ need, (∀ latch, familyMatches need latch = familyAdmits i latch) ∧
      exec i s = command i need (acceptedSession i) (commandBody s.config s.family i) s := by
  cases i <;> exact ⟨_, fun _ => rfl, rfl⟩

/-- A command passes the common checks (R201). -/
structure Admitted (i : Instr) (s : State) : Prop where
  /-- The engine has recorded no fault. -/
  running : Running s
  /-- The command is legal as it stands. -/
  wellFormed : i.wellFormed = true
  /-- FAMILY is one the command runs under. -/
  family : familyAdmits i s.family = true
  /-- SESSION is the one the command accepts. -/
  session : s.session = acceptedSession i

/-- The next states of a command: it faults before any write, the port bus fails its `k`-th write, it completes, or it is
the `SET_FAMILY` that latches FAMILY. -/
inductive Effect (i : Instr) (s : State) : State → Prop
  /-- A fault before any write (R203, R204, R206). -/
  | faulted (cause : FaultCause) (hcause : cause ≠ .portWriteFailure) :
      Effect i s (takeFault cause (encode i) s)
  /-- A failed write (R205). -/
  | writeFailed (hadm : Admitted i s) (k : Nat) (hk : k < (commandDrives s.config s.family i).length)
      (hacc : s.accepts k) (hfail : s.answer k = .failed) :
      Effect i s (takeFault .portWriteFailure (encode i) (broken ((commandDrives s.config s.family i).take k) s))
  /-- Every write succeeds (R25, R27). -/
  | completed (hadm : Admitted i s) (hacc : s.accepts (commandDrives s.config s.family i).length) :
      Effect i s (finish (resultSession i) (driven (commandDrives s.config s.family i) s))
  /-- The first `SET_FAMILY` (R170). -/
  | latched (fam : Family) (hi : i = .setFamily fam) (hadm : Admitted i s) (hunset : s.family = Option.none) :
      Effect i s (finish .none { s with family := some fam })

/-- Running a command's own line changes completes it or fails at a write. -/
theorem transmit_effect {i : Instr} {s : State} (hadm : Admitted i s) :
    Effect i s (transmit i (commandDrives s.config s.family i) (resultSession i) s) := by
  rcases transmit_cases i (commandDrives s.config s.family i) (resultSession i) s with
    ⟨hacc, ht⟩ | ⟨k, hk, hacc, hfail, ht⟩
  · exact ht ▸ .completed hadm hacc
  · exact ht ▸ .writeFailed hadm k hk hacc hfail

theorem latchFamily_effect {fam : Family} {s : State} (hadm : Admitted (.setFamily fam) s) :
    Effect (.setFamily fam) s (latchFamily fam s) := by
  unfold latchFamily
  split
  case h_1 => exact .faulted .sequenceError (by decide)
  case h_2 hunset => exact .latched fam rfl hadm hunset

theorem runProgram_effect {addr : Byte} {value : BitVec 16} {s : State} (hadm : Admitted (.program addr value) s) :
    Effect (.program addr value) s (runProgram addr value s) := by
  unfold runProgram
  split
  case h_1 => exact .faulted .familyError (by decide)
  case h_2 f hf =>
    split
    · have hdrives : commandDrives s.config s.family (.program addr value) = programDrives s.config addr value f := by
        simp [commandDrives, hf]
      exact hdrives ▸ transmit_effect hadm
    · exact .faulted .illegalCommand (by decide)

theorem commandBody_effect {i : Instr} {s : State} (hadm : Admitted i s) :
    Effect i s (commandBody s.config s.family i s) := by
  unfold commandBody
  split
  · exact latchFamily_effect hadm
  · exact runProgram_effect hadm
  · exact transmit_effect hadm

/-- What executing a command can do: the engine was running, and the next state is one `Effect` lists (R201). -/
theorem exec_effect {i : Instr} {s t : State} (h : exec i s = .next t) : Running s ∧ Effect i s t := by
  obtain ⟨need, hneed, heq⟩ := exec_eq_command i s
  rw [heq] at h
  rcases command_cases i need (acceptedSession i) (commandBody s.config s.family i) s with
    ⟨_, hc⟩ | ⟨hrun, _, hc⟩ | ⟨hrun, _, _, hc⟩ | ⟨hrun, _, _, _, hc⟩ | ⟨hrun, hwf, hfam, hses, hc⟩ <;>
    rw [hc] at h <;> cases h
  · exact ⟨hrun, .faulted .illegalCommand (by decide)⟩
  · exact ⟨hrun, .faulted .familyError (by decide)⟩
  · exact ⟨hrun, .faulted .sequenceError (by decide)⟩
  · exact ⟨hrun, commandBody_effect ⟨hrun, hwf, hneed s.family ▸ hfam, hses⟩⟩

/-! ## What a step can do -/

/-- The engine was running and waits for a command, refuses an illegal word, or executes a legal one (R201). -/
theorem step_cases {s t : State} (h : step s = .next t) :
    Running s ∧
      ((s.fetch = Option.none ∧ t = s) ∨
        (∃ w e, s.fetch = some w ∧ decode w = .error e ∧ t = takeFault .illegalCommand w s) ∨
        ∃ w i, s.fetch = some w ∧ decode w = .ok i ∧ exec i s = .next t) := by
  unfold step at h
  split at h
  case isTrue => cases h
  case isFalse hrun =>
    refine ⟨s.halted_eq_false_iff.mp (by simpa using hrun), ?_⟩
    split at h
    case h_1 hfetch => cases h; exact .inl ⟨hfetch, rfl⟩
    case h_2 w hfetch =>
      split at h
      case h_1 e hdec => cases h; exact .inr (.inl ⟨w, e, hfetch, hdec, rfl⟩)
      case h_2 i hdec => exact .inr (.inr ⟨w, i, hfetch, hdec, h⟩)

end Sys2Proof.Machine
end

section
/-! PROOFS. The rules of spec/10_state.md. -/

namespace Sys2Proof.Proofs

open Sys2Proof.Machine Sys2Proof.Safety

/-- Taking a fault halts the engine and leaves `pc` (R207). -/
theorem takeFault_halts_keeps_pc (cause : FaultCause) (cmd : Word) (s : State) :
    ¬ Running (takeFault cause cmd s) ∧ (takeFault cause cmd s).pc = s.pc :=
  ⟨cause.code_ne_zero, rfl⟩

/-- A command that completes leaves the engine running and advances `pc`; one that faults halts it and keeps `pc`
(R27). -/
theorem exec_pc {i : Instr} {s t : State} (h : exec i s = .next t) :
    (Running t ∧ t.pc = s.pc + 1) ∨ (¬ Running t ∧ t.pc = s.pc) := by
  obtain ⟨hrun, heff⟩ := exec_effect h
  cases heff with
  | faulted cause => exact .inr (takeFault_halts_keeps_pc cause (encode i) s)
  | writeFailed _ k => exact .inr (takeFault_halts_keeps_pc .portWriteFailure (encode i) (broken _ s))
  | completed => exact .inl ⟨hrun, rfl⟩
  | latched => exact .inl ⟨hrun, rfl⟩

/-- Settles O35: a fetched word is illegal and faults, or is a command, of which `exec_pc` speaks. -/
theorem pcAdvancesByOneOrStays : Obligations.PcAdvancesByOneOrStays := by
  refine ⟨rfl, fun s t w hw h => ?_⟩
  obtain ⟨_, ⟨hnone, _⟩ | ⟨v, _, _, _, rfl⟩ | ⟨_, i, _, _, hexec⟩⟩ := step_cases h
  · simp [hnone] at hw
  · exact .inr (takeFault_halts_keeps_pc .illegalCommand v s)
  · exact exec_pc hexec

end Sys2Proof.Proofs
end

section
/-! PROOFS. The rules of spec/20_memory.md. -/

namespace Sys2Proof.Proofs

open Sys2Proof.Machine

/-- Legal parameters put the register at a multiple of 4 (R46). -/
theorem gpioAddr_aligned_of_legalParameters {d : Defaults} {b : Board} (hlegal : legalParameters d b = true) :
    b.gpioAddr % 4 = 0 := by
  simp only [legalParameters, Bool.and_eq_true, decide_eq_true_eq] at hlegal
  obtain ⟨⟨⟨⟨_, haligned⟩, _⟩, _⟩, _⟩ := hlegal
  exact haligned

/-- Parameters that are no configuration of this hardware are refused by name, whatever constraint they break (R46). -/
theorem powerOn_refuses_of_not_legal {d : Defaults} {b : Board} (hillegal : ¬ legalParameters d b = true) :
    powerOn d b = .refused .illegalConfiguration :=
  dif_neg hillegal

/-- Settles O52: a state's configuration carries the proof that it is legal, and misaligned parameters are not legal. -/
theorem misalignedConfigurationIsRefused : Obligations.MisalignedConfigurationIsRefused := by
  refine ⟨fun s => gpioAddr_aligned_of_legalParameters s.config.legal, fun d b hmisaligned => ?_⟩
  exact powerOn_refuses_of_not_legal (mt gpioAddr_aligned_of_legalParameters hmisaligned)

end Sys2Proof.Proofs
end

section
/-! SUPPORT. The decoder of spec/30_encoding.md section 4: the rows of the opcode table, one equation for each opcode,
and which words are legal. -/

namespace Sys2Proof.Machine

open Sys2Proof.Safety

/-! ## The rows of the opcode table -/

/-- The match of the row whose opcode is `op`. -/
def rowMatch (op : BitVec 4) : Word := op ++ 0#28

/-- The mask of a row whose operands are the low `n` bits: every other bit. -/
def rowMask (n : Nat) : Word := BitVec.allOnes 32 <<< n

/-- How many of the low bits the operand fields of an opcode take up (R71). -/
def operandBits (op : BitVec 4) : Nat := [0, 3, 0, 0, 1, 8, 0, 16, 0, 21, 1, 0, 22, 0, 1, 24].getD op.toNat 0

theorem operandBits_le (op : BitVec 4) : operandBits op ≤ 28 := by
  revert op; decide

theorem opcodeRows_eq :
    opcodeRows = ((List.range' 1 15).map (BitVec.ofNat 4)).map fun op => (rowMatch op, rowMask (operandBits op)) := by
  decide

theorem mem_opcodes_iff (op : BitVec 4) : op ∈ (List.range' 1 15).map (BitVec.ofNat 4) ↔ op ≠ 0#4 := by
  revert op; decide

/-- A word matches a row exactly when it has the row's opcode and no reserved bit. -/
theorem and_rowMask_eq_rowMatch_iff {n : Nat} (hn : n ≤ 28) (op : BitVec 4) (w : Word) :
    w &&& rowMask n = rowMatch op ↔ opcodeOf w = op ∧ reservedClear n w = true := by
  have hmask : (w &&& rowMask n).toNat = w.toNat - w.toNat % 2 ^ n := by
    rw [rowMask, ← BitVec.shiftLeft_ushiftRight, BitVec.toNat_shiftLeft, BitVec.toNat_ushiftRight,
      Nat.shiftRight_eq_div_pow, Nat.shiftLeft_eq,
      Nat.mod_eq_of_lt (Nat.lt_of_le_of_lt (Nat.div_mul_le_self _ _) w.isLt)]
    have := Nat.div_add_mod' w.toNat (2 ^ n)
    omega
  have hlow : w.toNat % 2 ^ n = w.toNat % 2 ^ 28 % 2 ^ n := (Nat.mod_mod_of_dvd _ (Nat.pow_dvd_pow 2 hn)).symm
  have hfits : w.toNat % 2 ^ 28 % 2 ^ n = w.toNat % 2 ^ 28 ↔ w.toNat % 2 ^ 28 < 2 ^ n :=
    Nat.mod_eq_iff_lt (by positivity)
  have hle := Nat.mod_le (w.toNat % 2 ^ 28) (2 ^ n)
  have hw := w.isLt
  have hop := op.isLt
  simp only [reservedClear, opcodeOf, decide_eq_true_eq, ← BitVec.toNat_inj, hmask, hlow, rowMatch,
    Laws.toNat_append_eq, Laws.bitField_toNat, BitVec.toNat_ofNat]
  generalize w.toNat % 2 ^ 28 % 2 ^ n = low at *
  omega

/-! ## The decoder, one equation for each opcode -/

section DecodeRows

variable {w : Word}

theorem decode_of_reserved (h : opcodeOf w = 0x0#4) : decode w = .error .reservedOpcode := by simp [decode, h]

theorem decode_of_setLines (h : opcodeOf w = 0x1#4) :
    decode w = withReserved 3 w (.ok (.setLines (w.getLsbD 2) (w.getLsbD 1) (w.getLsbD 0))) := by simp [decode, h]

theorem decode_of_i2cInit (h : opcodeOf w = 0x2#4) : decode w = withReserved 0 w (.ok .i2cInit) := by simp [decode, h]

theorem decode_of_i2cStart (h : opcodeOf w = 0x3#4) : decode w = withReserved 0 w (.ok .i2cStart) := by
  simp [decode, h]

theorem decode_of_i2cSendBit (h : opcodeOf w = 0x4#4) :
    decode w = withReserved 1 w (.ok (.i2cSendBit (w.getLsbD 0))) := by simp [decode, h]

theorem decode_of_i2cSendByte (h : opcodeOf w = 0x5#4) :
    decode w = withReserved 8 w (.ok (.i2cSendByte (bitField 0 8 w))) := by simp [decode, h]

theorem decode_of_i2cStop (h : opcodeOf w = 0x6#4) : decode w = withReserved 0 w (.ok .i2cStop) := by simp [decode, h]

theorem decode_of_i2cWrite (h : opcodeOf w = 0x7#4) :
    decode w = withReserved 16 w (.ok (.i2cWrite (bitField 8 8 w) (bitField 0 8 w))) := by simp [decode, h]

theorem decode_of_spiSelect (h : opcodeOf w = 0x8#4) : decode w = withReserved 0 w (.ok .spiSelect) := by
  simp [decode, h]

theorem decode_of_spiSendField (h : opcodeOf w = 0x9#4) :
    decode w = withReserved 21 w (decodeField (bitField 16 5 w) (bitField 0 16 w)) := by simp [decode, h]

theorem decode_of_spiDeselect (h : opcodeOf w = 0xA#4) :
    decode w = withReserved 1 w (.ok (.spiDeselect (pauseOfBit (w.getLsbD 0)))) := by simp [decode, h]

theorem decode_of_spiWriteEnable (h : opcodeOf w = 0xB#4) : decode w = withReserved 0 w (.ok .spiWriteEnable) := by
  simp [decode, h]

theorem decode_of_spiWrite (h : opcodeOf w = 0xC#4) :
    decode w = withReserved 22 w (.ok (.spiWrite (bitField 16 6 w) (bitField 0 16 w))) := by simp [decode, h]

theorem decode_of_spiWriteDisable (h : opcodeOf w = 0xD#4) : decode w = withReserved 0 w (.ok .spiWriteDisable) := by
  simp [decode, h]

theorem decode_of_setFamily (h : opcodeOf w = 0xE#4) :
    decode w = withReserved 1 w (.ok (.setFamily (familyOfBit (w.getLsbD 0)))) := by simp [decode, h]

theorem decode_of_program (h : opcodeOf w = 0xF#4) :
    decode w = withReserved 24 w (.ok (.program (bitField 16 8 w) (bitField 0 16 w))) := by simp [decode, h]

end DecodeRows

/-- A word that matches its opcode's row passes the row's check of its reserved bits. -/
theorem decode_of_matches {w : Word} {op : BitVec 4} {n : Nat} {r : Except DecodeError Instr}
    (hrow : opcodeOf w = op → decode w = withReserved n w r) (hmatch : w &&& rowMask n = rowMatch op)
    (hn : n ≤ 28 := by decide) : decode w = r := by
  obtain ⟨hop, hclear⟩ := (and_rowMask_eq_rowMatch_iff hn op w).mp hmatch
  rw [hrow hop, withReserved, if_pos hclear]

theorem fieldWidthLegal_iff (width : BitVec 5) :
    fieldWidthLegal width = true ↔ 1 ≤ width.toNat ∧ width.toNat ≤ 16 := by
  simp [fieldWidthLegal]

theorem fieldValueLegal_iff (width : BitVec 5) (value : BitVec 16) :
    fieldValueLegal width value = true ↔ value.toNat < 2 ^ width.toNat := by
  simp [fieldValueLegal]

/-- A field decodes exactly when both checks of R73 (c) and (d) pass. -/
theorem decodeField_eq_ok_iff (width : BitVec 5) (value : BitVec 16) (i : Instr) :
    decodeField width value = .ok i ↔
      fieldWidthLegal width = true ∧ fieldValueLegal width value = true ∧ i = .spiSendField width value := by
  unfold decodeField
  cases fieldWidthLegal width <;> cases fieldValueLegal width value <;> simp [eq_comm]

theorem withReserved_eq_ok_iff (n : Nat) (w : Word) (r : Except DecodeError Instr) (i : Instr) :
    withReserved n w r = .ok i ↔ reservedClear n w = true ∧ r = .ok i := by
  unfold withReserved
  split <;> simp [*]

/-- R73 turned round: the opcode is not 0, no reserved bit is 1, and a field passes its two checks. -/
def LegalWord (w : Word) : Prop :=
  opcodeOf w ≠ 0x0#4 ∧ reservedClear (operandBits (opcodeOf w)) w = true ∧
    (opcodeOf w = 0x9#4 →
      fieldWidthLegal (bitField 16 5 w) = true ∧ fieldValueLegal (bitField 16 5 w) (bitField 0 16 w) = true)

/-- A row other than that of fields checks its reserved bits alone. -/
theorem plainRow_ok_iff {w : Word} {k n : Nat} {i : Instr} (hop : (opcodeOf w).toNat = k) (hk : k ≠ 0 ∧ k ≠ 9)
    (hn : operandBits (BitVec.ofNat 4 k) = n) :
    (∃ j, withReserved n w (.ok i) = .ok j) ↔ LegalWord w := by
  have hop' : BitVec.ofNat 4 k = opcodeOf w := by rw [← hop, BitVec.ofNat_toNat, BitVec.setWidth_eq]
  rw [hop'] at hn
  simp [LegalWord, withReserved_eq_ok_iff, ← BitVec.toNat_inj, hop, hk, hn]

/-- The decoder accepts the legal words. -/
theorem decode_ok_iff (w : Word) : (∃ i, decode w = .ok i) ↔ LegalWord w := by
  unfold decode
  split
  case h_9 hop =>
    have hop' : opcodeOf w = 0x9#4 := BitVec.eq_of_toNat_eq hop
    simp [LegalWord, hop', operandBits, withReserved_eq_ok_iff, decodeField_eq_ok_iff]
  case h_16 =>
    have hlt := (opcodeOf w).isLt
    simp only [imp_false] at *
    have hop : opcodeOf w = 0x0#4 := BitVec.eq_of_toNat_eq (show (opcodeOf w).toNat = 0 by omega)
    simp [LegalWord, hop]
  all_goals exact plainRow_ok_iff ‹(opcodeOf w).toNat = _› (by decide) rfl

/-- The words that match a row are those of its opcode without a reserved bit. -/
theorem opcodeRows_all_ne_eq_false_iff (w : Word) :
    opcodeRows.all (fun row => decide (w &&& row.2 ≠ row.1)) = false ↔
      opcodeOf w ≠ 0x0#4 ∧ reservedClear (operandBits (opcodeOf w)) w = true := by
  rw [opcodeRows_eq, List.all_map, List.all_eq_false]
  simp only [Function.comp_apply, decide_not, Bool.not_eq_true', decide_eq_false_iff_not, not_not,
    and_rowMask_eq_rowMatch_iff (operandBits_le _), mem_opcodes_iff]
  constructor
  · rintro ⟨_, hop, rfl, hclear⟩
    exact ⟨hop, hclear⟩
  · rintro ⟨hop, hclear⟩
    exact ⟨_, hop, rfl, hclear⟩

/-- The words `illegalWord` spares are the legal ones. -/
theorem illegalWord_eq_false_iff (w : Word) : illegalWord w = false ↔ LegalWord w := by
  have hop : w.extractLsb' 28 4 = opcodeOf w := rfl
  simp only [illegalWord, LegalWord, Bool.or_eq_false_iff, opcodeRows_all_ne_eq_false_iff, fieldWidthLegal_iff,
    fieldValueLegal_iff, bitField, hop]
  by_cases h9 : opcodeOf w = 0x9#4
  · generalize w.extractLsb' 16 5 = width
    generalize w.extractLsb' 0 16 = value
    simp only [h9, decide_true, Bool.true_and]
    grind
  · simp [h9]

/-- A running engine takes an IllegalCommand on a word the decoder refuses (R73, R203). -/
theorem step_of_decode_error {s : State} {w : Word} {e : DecodeError} (hrun : Running s) (hfetch : s.fetch = some w)
    (hdec : decode w = .error e) : step s = .next (takeFault .illegalCommand w s) := by
  simp [step, (s.halted_eq_false_iff).mpr hrun, hfetch, hdec]

theorem decode_error_of_illegal {w : Word} (h : illegalWord w = true) : ∃ e, decode w = .error e := by
  cases hdec : decode w with
  | error e => exact ⟨e, rfl⟩
  | ok i => simp [(illegalWord_eq_false_iff w).mpr ((decode_ok_iff w).mp ⟨i, hdec⟩)] at h

end Sys2Proof.Machine
end

section
/-! SUPPORT. The port word bit by bit, and lists of commands that send line changes: such a list drives the lines as one
command with all their line changes does, which R76 says of the composite commands. -/

namespace Sys2Proof.Machine

open Sys2Proof.Safety

/-! ## The port word, bit by bit -/

/-- A line's bit stands at its position, and 0 at every other one. -/
theorem lineAt_getLsbD (b : Bool) (p q : Fin 32) : (lineAt b p).getLsbD q.val = (decide (q = p) && b) := by
  have hq := q.isLt
  rcases Nat.lt_trichotomy q.val p.val with hlt | heq | hgt
  · simp [lineAt, Fin.ext_iff, hlt, hlt.ne]
  · simp [lineAt, Fin.ext_iff, heq]
  · simp [lineAt, Fin.ext_iff, hgt.ne', hgt.not_gt, Nat.sub_ne_zero_of_lt hgt]

/-- A bit of the port word is that of the line at its position (R61). -/
theorem compose_getLsbD (c : Configuration) (cs clk dataOut : Bool) (p : Fin 32) :
    (compose c cs clk dataOut).getLsbD p.val =
      ((decide (p = c.board.pCs) && cs) || (decide (p = c.board.pClk) && clk) || (decide (p = c.board.pDo) && dataOut)
        || decide (p = c.board.pOe)) := by
  simp only [compose, BitVec.getLsbD_or, lineAt_getLsbD, Bool.and_true]

/-- The five bit positions of a configuration are distinct (R8). -/
theorem pins_nodup (c : Configuration) :
    [c.board.pCs, c.board.pClk, c.board.pDo, c.board.pOe, c.board.pFam].Nodup := by
  have hlegal := c.legal
  simp only [legalParameters, Bool.and_eq_true, Board.pinsDistinct, decide_eq_true_eq] at hlegal
  obtain ⟨⟨⟨_, hpins⟩, _⟩, _⟩ := hlegal
  exact hpins

/-! ## Sequences of commands that send line changes -/

theorem drivenLines_append (c : Configuration) (xs ys : List Drive) (l : Word) :
    drivenLines c ys (drivenLines c xs l) = drivenLines c (xs ++ ys) l := by
  cases hy : ys.getLast? with
  | none => simp [drivenLines, List.getLast?_eq_none_iff.mp hy]
  | some d => simp [drivenLines, List.getLast?_append, hy]

theorem driven_append (xs ys : List Drive) (s : State) : driven ys (driven xs s) = driven (xs ++ ys) s := by
  induction xs generalizing s with
  | nil => simp [driven, drivenLines, drivesEvents]
  | cons d xs ih => rw [← driven_cons, ih, driven_cons, List.cons_append]

/-- Drives neither read nor change SESSION and `pc`. -/
theorem driven_finish (ds : List Drive) (after : Session) (s : State) :
    driven ds (finish after s) = finish after (driven ds s) := rfl

/-- The writes of a list of drives are accepted: those of its first part, and after them those of the rest. -/
theorem accepts_append {xs ys : List Drive} {s : State} (h : s.accepts (xs ++ ys).length) :
    s.accepts xs.length ∧ (driven xs s).accepts ys.length := by
  rw [List.length_append] at h
  refine ⟨fun k hk => h k (by omega), fun k hk => ?_⟩
  rw [driven_answer]
  exact h _ (by omega)

/-- A command that is admitted by its own operands and by FAMILY and only sends its line changes. -/
structure Sendable (c : Configuration) (latch : Option Family) (i : Instr) : Prop where
  /-- Legal as it stands. -/
  wellFormed : i.wellFormed = true
  /-- Its engine is the latched one. -/
  family : familyAdmits i latch = true
  /-- Its pseudocode sends its line changes. -/
  body : ∀ s, s.config = c → s.family = latch →
    commandBody c latch i s = transmit i (commandDrives c latch i) (resultSession i) s

/-- A sendable command in its SESSION, of which the port bus accepts every write, completes. -/
theorem exec_completes {i : Instr} {s : State} (hrun : Running s) (hi : Sendable s.config s.family i)
    (hses : s.session = acceptedSession i) (hacc : s.accepts (commandDrives s.config s.family i).length) :
    exec i s = .next (finish (resultSession i) (driven (commandDrives s.config s.family i) s)) := by
  obtain ⟨need, hneed, heq⟩ := exec_eq_command i s
  rw [heq, command_admitted hrun hi.wellFormed ((hneed s.family).trans hi.family) hses, hi.body s rfl rfl]
  simp [transmit, driveAll_accepted _ s hacc]

/-- The SESSION each command of a list accepts is the one the command before it leaves (R25): from `a` to `b`. -/
def SessionsChain : Session → List Instr → Session → Prop
  | a, [], b => a = b
  | a, i :: is, b => a = acceptedSession i ∧ SessionsChain (resultSession i) is b

/-- The line changes of a list of commands. -/
def listDrives (c : Configuration) (latch : Option Family) (is : List Instr) : List Drive :=
  is.flatMap (commandDrives c latch)

theorem listDrives_cons (c : Configuration) (latch : Option Family) (i : Instr) (is : List Instr) :
    listDrives c latch (i :: is) = commandDrives c latch i ++ listDrives c latch is := by
  simp [listDrives]

/-- A list of sendable commands drives the lines as one command with all their line changes would. -/
theorem execAll_completes {is : List Instr} {s : State} {after : Session} (hrun : Running s)
    (hsend : ∀ i ∈ is, Sendable s.config s.family i) (hchain : SessionsChain s.session is after)
    (hacc : s.accepts (listDrives s.config s.family is).length) :
    execAll is s = .next { driven (listDrives s.config s.family is) s with
      session := after, pc := s.pc + is.length } := by
  induction is generalizing s with
  | nil =>
    obtain rfl : s.session = after := hchain
    simp [execAll, listDrives, driven, drivenLines, drivesEvents]
  | cons i is ih =>
    obtain ⟨hses, hchain⟩ := hchain
    obtain ⟨haccFirst, haccRest⟩ := accepts_append (listDrives_cons s.config s.family i is ▸ hacc)
    have hfirst := exec_completes hrun (hsend i (by simp)) hses haccFirst
    have hrest := ih (s := finish (resultSession i) (driven (commandDrives s.config s.family i) s)) hrun
      (fun j hj => hsend j (by simp [hj])) hchain haccRest
    simp only [execAll, hfirst, hrest, finish_config, finish_family, driven_config, driven_family, driven_finish,
      driven_append, ← listDrives_cons]
    simp [finish, Nat.add_assoc, Nat.add_comm 1]

/-- A command whose line changes are those of a list of commands leaves the same state, but for `pc`. -/
theorem exec_eq_execAll {i : Instr} {is : List Instr} {s : State} (hrun : Running s)
    (hi : Sendable s.config s.family i) (hses : s.session = acceptedSession i)
    (hsend : ∀ j ∈ is, Sendable s.config s.family j) (hchain : SessionsChain s.session is (resultSession i))
    (hdrives : commandDrives s.config s.family i = listDrives s.config s.family is)
    (hacc : s.accepts (commandDrives s.config s.family i).length) :
    ∃ t, exec i s = .next t ∧ t.pc = s.pc + 1 ∧ execAll is s = .next { t with pc := s.pc + is.length } :=
  ⟨_, exec_completes hrun hi hses hacc, rfl, by
    rw [execAll_completes hrun hsend hchain (hdrives ▸ hacc), hdrives]
    rfl⟩

/-! ## Bit fields -/

@[simp] theorem bitsMsbFirst_length {m : Nat} (value : BitVec m) (n : Nat) : (bitsMsbFirst value n).length = n := by
  induction n with
  | zero => rfl
  | succ n ih => simp [bitsMsbFirst, ih]

/-- The low bits of a value do not depend on the width it is held in. -/
theorem bitsMsbFirst_setWidth {m : Nat} (value : BitVec m) {k n : Nat} (hn : n ≤ k) :
    bitsMsbFirst (value.setWidth k) n = bitsMsbFirst value n := by
  induction n with
  | zero => rfl
  | succ n ih => simp [bitsMsbFirst, ih (by omega), Nat.lt_of_succ_le hn]

@[simp] theorem pulses_length (cs : Bool) (t : HoldName) (bits : List Bool) :
    (pulses cs t bits).length = 3 * bits.length := by
  induction bits with
  | nil => rfl
  | cons b bits ih =>
    have hcons : pulses cs t (b :: bits) = bitPulse cs t b ++ pulses cs t bits := rfl
    simp only [hcons, bitPulse, List.length_append, List.length_cons, List.length_nil, ih]
    omega

@[simp] theorem sendByte_length (c : Configuration) (b : Byte) : (sendByte c b).length = 27 := by
  simp [sendByte, sendBit, bitPulse]

@[simp] theorem sendField_length {m : Nat} (width : Nat) (value : BitVec m) :
    (sendField width value).length = 3 * width := by
  simp [sendField]

/-- A two-wire transaction makes 88 writes (R120). -/
theorem writeTransaction_length (c : Configuration) (addr val : Byte) : (writeTransaction c addr val).length = 88 := by
  simp [writeTransaction, initDrives, startDrives, stopDrives]

/-- A 4-wire command makes 78 writes (R151). -/
theorem commandSequence_length (opc : BitVec 3) (addr : BitVec 6) (data : BitVec 16) (pause : HoldName) :
    (commandSequence opc addr data pause).length = 78 := by
  simp [commandSequence, selectDrives, deselectDrives]

/-- The primitive commands that send a two-wire transaction (R76). -/
def transactionCommands (d : Defaults) (addr val : Byte) : List Instr :=
  [.i2cInit, .i2cStart, .i2cSendByte d.devSel, .i2cSendByte addr, .i2cSendByte val, .i2cStop]

/-- The primitive commands that send a 4-wire frame (R76). -/
def frameCommands (opc : BitVec 3) (addr : BitVec 6) (data : BitVec 16) (pause : Pause) : List Instr :=
  [.spiSelect, .spiSendField 3#5 (opc.setWidth 16), .spiSendField 6#5 (addr.setWidth 16), .spiSendField 16#5 data,
    .spiDeselect pause]

theorem listDrives_transactionCommands (c : Configuration) (latch : Option Family) (addr val : Byte) :
    listDrives c latch (transactionCommands c.defaults addr val) = writeTransaction c addr val := by
  simp [listDrives, transactionCommands, commandDrives, writeTransaction]

theorem listDrives_frameCommands (c : Configuration) (latch : Option Family) (opc : BitVec 3) (addr : BitVec 6)
    (data : BitVec 16) (pause : Pause) :
    listDrives c latch (frameCommands opc addr data pause) = commandSequence opc addr data (holdOfPause pause) := by
  simp [listDrives, frameCommands, commandDrives, commandSequence, sendField, bitsMsbFirst_setWidth]

/-- A value held in the 16 bits of `SPI_SEND_FIELD` is legal at its own width (R73). -/
theorem spiSendField_wellFormed {m : Nat} (width : BitVec 5) (value : BitVec m) (hwidth : width.toNat = m)
    (hlegal : fieldWidthLegal width = true) :
    (Instr.spiSendField width (value.setWidth 16)).wellFormed = true := by
  have hfits : value.toNat % 2 ^ 16 < 2 ^ m := Nat.lt_of_le_of_lt (Nat.mod_le _ _) value.isLt
  simpa [Instr.wellFormed, hlegal, fieldValueLegal_iff, hwidth] using hfits

theorem transactionCommands_sendable (c : Configuration) (addr val : Byte) :
    ∀ i ∈ transactionCommands c.defaults addr val, Sendable c (some .i2c) i := by
  simp only [transactionCommands, List.forall_mem_cons]
  refine ⟨?_, ?_, ?_, ?_, ?_, ?_, by simp⟩ <;> exact ⟨rfl, rfl, fun _ _ _ => rfl⟩

theorem frameCommands_sendable (c : Configuration) (opc : BitVec 3) (addr : BitVec 6) (data : BitVec 16)
    (pause : Pause) : ∀ i ∈ frameCommands opc addr data pause, Sendable c (some .fourwire) i := by
  have hopc := spiSendField_wellFormed 3#5 opc rfl (by decide)
  have haddr := spiSendField_wellFormed 6#5 addr rfl (by decide)
  have hdata := data.setWidth_eq ▸ spiSendField_wellFormed 16#5 data rfl (by decide)
  simp only [frameCommands, List.forall_mem_cons]
  exact ⟨⟨rfl, rfl, fun _ _ _ => rfl⟩, ⟨hopc, rfl, fun _ _ _ => rfl⟩, ⟨haddr, rfl, fun _ _ _ => rfl⟩,
    ⟨hdata, rfl, fun _ _ _ => rfl⟩, ⟨rfl, rfl, fun _ _ _ => rfl⟩, by simp⟩

/-! ## The composite commands and their primitives (R76) -/

/-- `I2C_WRITE` leaves what its six primitive commands leave, but for `pc`. -/
theorem i2cWrite_eq_transactionCommands (addr val : Byte) {s : State} (hrun : Running s)
    (hfam : s.family = some .i2c) (hses : s.session = .none) (hacc : s.accepts 88) :
    ∃ t, exec (.i2cWrite addr val) s = .next t ∧ t.pc = s.pc + 1 ∧
      execAll (transactionCommands s.config.defaults addr val) s = .next { t with pc := s.pc + 6 } := by
  have hwrite : Sendable s.config s.family (.i2cWrite addr val) :=
    hfam ▸ ⟨rfl, rfl, fun _ _ _ => rfl⟩
  refine exec_eq_execAll hrun hwrite hses ?sendable ?chain ?drives ?accepted
  case sendable => exact hfam ▸ transactionCommands_sendable s.config addr val
  case chain => exact ⟨hses, rfl, rfl, rfl, rfl, rfl, rfl⟩
  case drives => exact (listDrives_transactionCommands s.config s.family addr val).symm
  case accepted => exact (writeTransaction_length s.config addr val).symm ▸ hacc

/-- A 4-wire command that sends a frame leaves what the five primitive commands of the frame leave, but for `pc`. -/
theorem exec_eq_frameCommands {i : Instr} {s : State} {opc : BitVec 3} {addr : BitVec 6} {data : BitVec 16}
    {pause : Pause} (hrun : Running s) (hfam : s.family = some .fourwire) (hses : s.session = .none)
    (hacc : s.accepts 78) (hi : Sendable s.config (some .fourwire) i) (haccepted : acceptedSession i = .none)
    (hresult : resultSession i = .none)
    (hdrives : commandDrives s.config s.family i = commandSequence opc addr data (holdOfPause pause)) :
    ∃ t, exec i s = .next t ∧ t.pc = s.pc + 1 ∧
      execAll (frameCommands opc addr data pause) s = .next { t with pc := s.pc + 5 } := by
  refine exec_eq_execAll hrun (hfam ▸ hi) (hses.trans haccepted.symm) ?sendable ?chain ?drives ?accepted
  case sendable => exact hfam ▸ frameCommands_sendable s.config opc addr data pause
  case chain => exact ⟨hses, rfl, rfl, rfl, rfl, hresult.symm⟩
  case drives => rw [hdrives, listDrives_frameCommands]
  case accepted => rw [hdrives, commandSequence_length]; exact hacc

end Sys2Proof.Machine
end

section
/-! PROOFS. The rules of spec/30_encoding.md. -/

namespace Sys2Proof.Proofs

open Sys2Proof.Machine Sys2Proof.Safety

/-- Settles O3: a word that matches a row has the row's opcode and passes its check of the reserved bits, and a field's
operands pass theirs. -/
theorem matchingWordsDecodeToTheirRow : Obligations.MatchingWordsDecodeToTheirRow := by
  intro w
  refine ⟨fun h => decode_of_reserved ((and_rowMask_eq_rowMatch_iff (n := 28) le_rfl 0x0#4 w).mp h).1,
    decode_of_matches decode_of_setLines, decode_of_matches decode_of_i2cInit, decode_of_matches decode_of_i2cStart,
    decode_of_matches decode_of_i2cSendBit, decode_of_matches decode_of_i2cSendByte,
    decode_of_matches decode_of_i2cStop, decode_of_matches decode_of_i2cWrite, decode_of_matches decode_of_spiSelect,
    fun hmatch hpos hle hfits => ?_, decode_of_matches decode_of_spiDeselect,
    decode_of_matches decode_of_spiWriteEnable, decode_of_matches decode_of_spiWrite,
    decode_of_matches decode_of_spiWriteDisable, decode_of_matches decode_of_setFamily,
    decode_of_matches decode_of_program⟩
  rw [decode_of_matches decode_of_spiSendField hmatch, decodeField_eq_ok_iff]
  exact ⟨(fieldWidthLegal_iff _).mpr ⟨hpos, hle⟩, (fieldValueLegal_iff _ _).mpr hfits, rfl⟩

/-- Settles O4: `illegalWord` and the decoder spare the same words, the legal ones, and a step on any other takes the
fault. -/
theorem illegalWordsRaiseIllegalCommand : Obligations.IllegalWordsRaiseIllegalCommand := by
  refine ⟨fun w => (illegalWord_eq_false_iff w).trans (decode_ok_iff w).symm, fun s w hrun hfetch hillegal => ?_⟩
  obtain ⟨e, hdec⟩ := decode_error_of_illegal hillegal
  exact step_of_decode_error hrun hfetch hdec

/-- Settles O40: each bit is an `or` over the four lines, of which at most one stands at a position. -/
theorem composedWordBits : Obligations.ComposedWordBits := by
  intro c cs clk dataOut p
  have hpins := pins_nodup c
  simp only [List.nodup_cons, List.mem_cons, not_or] at hpins
  obtain ⟨⟨hcsClk, hcsDo, hcsOe, _⟩, ⟨hclkDo, hclkOe, _⟩, ⟨hdoOe, _⟩, _⟩ := hpins
  rw [compose_getLsbD]
  split_ifs with hcs hclk hdo hoe
  · simp [hcs, hcsClk, hcsDo, hcsOe]
  · simp [hclk, Ne.symm hcsClk, hclkDo, hclkOe]
  · simp [hdo, Ne.symm hcsDo, Ne.symm hclkDo, hdoOe]
  · simp [hoe]
  · simp [hcs, hclk, hdo, hoe]

/-- Settles O50: a composite command's line changes are those of its primitives, one after another. -/
theorem compositesEqualTheirPrimitives : Obligations.CompositesEqualTheirPrimitives := by
  refine ⟨fun a v s => i2cWrite_eq_transactionCommands a v, ?_⟩
  intro s hrun hfam hses hacc hopcWen hopcWrite hopcWds haddrWen haddrWds hdataWen hdataWds
  have hsame {i : Instr} {opc : BitVec 3} {addr : BitVec 6} {data : BitVec 16} {pause : Pause} :=
    exec_eq_frameCommands (i := i) (opc := opc) (addr := addr) (data := data) (pause := pause) hrun hfam hses hacc
  refine ⟨?writeEnable, fun a d => ?write, ?writeDisable⟩
  case writeEnable =>
    refine hsame (opc := 4#3) (addr := 0#6) ⟨rfl, rfl, fun _ _ _ => rfl⟩ rfl rfl ?_
    simp only [commandDrives, writeEnableDrives, hopcWen, haddrWen, hdataWen, holdOfPause]
  case write =>
    refine hsame (opc := 5#3) ⟨rfl, rfl, fun _ _ _ => rfl⟩ rfl rfl ?_
    simp only [commandDrives, writeDrives, hopcWrite, holdOfPause]
  case writeDisable =>
    refine hsame (opc := 4#3) (addr := 0#6) ⟨rfl, rfl, fun _ _ _ => rfl⟩ rfl rfl ?_
    simp only [commandDrives, writeDisableDrives, hopcWds, haddrWds, hdataWds, holdOfPause]

end Sys2Proof.Proofs
end

section
/-! SUPPORT. The writes of commands that send line changes: one for each line change. -/

namespace Sys2Proof.Machine

open Sys2Proof.Safety

/-! ## Counting writes -/

/-- Drives write the composed word of each line change; a hold is no write (R101). -/
theorem writtenWords_drivesEvents (c : Configuration) (ds : List Drive) :
    writtenWords (drivesEvents c ds) = ds.map fun d => compose c d.cs d.clk d.dataOut := by
  induction ds with
  | nil => rfl
  | cons d ds ih =>
    have hfirst : writtenWords (driveEvents c d) = [compose c d.cs d.clk d.dataOut] := by
      cases hd : d.hold <;> simp [driveEvents, hd, writtenWords]
    have hcons : drivesEvents c (d :: ds) = driveEvents c d ++ drivesEvents c ds := rfl
    rw [hcons, writtenWords_append, hfirst, ih, List.map_cons, List.singleton_append]

/-- A sendable command with `n` line changes completes with `n` writes. -/
theorem exec_makes_writes {i : Instr} {s : State} {n : Nat} (hrun : Running s) (hi : Sendable s.config s.family i)
    (hses : s.session = acceptedSession i) (hlen : (commandDrives s.config s.family i).length = n)
    (hacc : s.accepts n) :
    ∃ t events, exec i s = .next t ∧ t.trace = s.trace ++ events ∧ (writtenWords events).length = n :=
  ⟨_, drivesEvents s.config (commandDrives s.config s.family i), exec_completes hrun hi hses (hlen ▸ hacc), rfl,
    by rw [writtenWords_drivesEvents, List.length_map, hlen]⟩

/-- Sendable commands in a row with `n` line changes among them complete with `n` writes. -/
theorem execAll_makes_writes {is : List Instr} {s : State} {after : Session} {n : Nat} (hrun : Running s)
    (hsend : ∀ i ∈ is, Sendable s.config s.family i) (hchain : SessionsChain s.session is after)
    (hlen : (listDrives s.config s.family is).length = n) (hacc : s.accepts n) :
    ∃ t events, execAll is s = .next t ∧ t.trace = s.trace ++ events ∧ (writtenWords events).length = n :=
  ⟨_, drivesEvents s.config (listDrives s.config s.family is), execAll_completes hrun hsend hchain (hlen ▸ hacc), rfl,
    by rw [writtenWords_drivesEvents, List.length_map, hlen]⟩

/-! ## The primitive sequence with any three bytes -/

/-- The primitive commands that send three bytes as one two-wire transaction (R120). -/
def threeByteCommands (a b c : Byte) : List Instr :=
  [.i2cInit, .i2cStart, .i2cSendByte a, .i2cSendByte b, .i2cSendByte c, .i2cStop]

theorem threeByteCommands_sendable (conf : Configuration) (a b c : Byte) :
    ∀ i ∈ threeByteCommands a b c, Sendable conf (some .i2c) i := by
  simp only [threeByteCommands, List.forall_mem_cons]
  refine ⟨?_, ?_, ?_, ?_, ?_, ?_, by simp⟩ <;> exact ⟨rfl, rfl, fun _ _ _ => rfl⟩

/-- Each command of the sequence leaves the SESSION that the next one accepts (R25). -/
theorem threeByteCommands_chain (a b c : Byte) : SessionsChain .none (threeByteCommands a b c) .none :=
  ⟨rfl, rfl, rfl, rfl, rfl, rfl, rfl⟩

/-- Init 2, Start 2, three bytes 27 each, Stop 3 (R120). -/
theorem listDrives_threeByteCommands_length (conf : Configuration) (latch : Option Family) (a b c : Byte) :
    (listDrives conf latch (threeByteCommands a b c)).length = 88 := by
  simp [listDrives, threeByteCommands, commandDrives, initDrives, startDrives, stopDrives]

end Sys2Proof.Machine
end

section
/-! PROOFS. The rules of spec/41_i2c_engine.md. -/

namespace Sys2Proof.Proofs

open Sys2Proof.Machine Sys2Proof.Safety

/-- Settles O42: both send 88 line changes, and each line change is one write. -/
theorem twoWireTransactionMakes88Writes : Obligations.TwoWireTransactionMakes88Writes := by
  intro s hrun hfam hses hacc
  refine ⟨fun addr val => ?composite, fun a b c => ?primitives⟩
  case composite =>
    have hwrite : Sendable s.config s.family (.i2cWrite addr val) := hfam ▸ ⟨rfl, rfl, fun _ _ _ => rfl⟩
    exact exec_makes_writes hrun hwrite hses (writeTransaction_length s.config addr val) hacc
  case primitives =>
    have hsend : ∀ i ∈ threeByteCommands a b c, Sendable s.config s.family i :=
      hfam ▸ threeByteCommands_sendable s.config a b c
    have hchain : SessionsChain s.session (threeByteCommands a b c) .none := hses ▸ threeByteCommands_chain a b c
    exact execAll_makes_writes hrun hsend hchain (listDrives_threeByteCommands_length s.config s.family a b c) hacc

end Sys2Proof.Proofs
end

section
/-! SUPPORT. What an observer reads from the writes of drives: their line states, and the data at the rising clock edges
of bit frames (R119, R149). -/

namespace Sys2Proof.Machine

open Sys2Proof.Safety

/-! ## The line states of drives -/

/-- The line state that a drive writes (R60, R101). -/
def Drive.nibble (d : Drive) : BitVec 4 := lineNibble d.cs d.clk d.dataOut

theorem lineNibble_cs : ∀ cs clk dataOut, (lineNibble cs clk dataOut).getLsbD 3 = cs := by decide
theorem lineNibble_clk : ∀ cs clk dataOut, (lineNibble cs clk dataOut).getLsbD 2 = clk := by decide
theorem lineNibble_dataOut : ∀ cs clk dataOut, (lineNibble cs clk dataOut).getLsbD 1 = dataOut := by decide

/-- The bits of a drive's line state are its three lines (R60). -/
theorem Drive.nibble_cs (d : Drive) : d.nibble.getLsbD 3 = d.cs := lineNibble_cs ..
theorem Drive.nibble_clk (d : Drive) : d.nibble.getLsbD 2 = d.clk := lineNibble_clk ..
theorem Drive.nibble_dataOut (d : Drive) : d.nibble.getLsbD 1 = d.dataOut := lineNibble_dataOut ..

/-- The port word shows the line state it was composed from, at four distinct positions (R60, R61). -/
theorem lineState_compose (c : Configuration) (cs clk dataOut : Bool) :
    lineState c (compose c cs clk dataOut) = lineNibble cs clk dataOut := by
  have hpins := pins_nodup c
  simp only [List.nodup_cons, List.mem_cons, not_or] at hpins
  obtain ⟨⟨hcsClk, hcsDo, hcsOe, _⟩, ⟨hclkDo, hclkOe, _⟩, ⟨hdoOe, _⟩, _⟩ := hpins
  simp only [lineState, compose_getLsbD, hcsClk, hcsDo, hcsOe, hclkDo, hclkOe, hdoOe, Ne.symm hcsClk, Ne.symm hcsDo,
    Ne.symm hcsOe, Ne.symm hclkDo, Ne.symm hclkOe, Ne.symm hdoOe, decide_true, decide_false, Bool.true_and,
    Bool.false_and, Bool.or_false, Bool.false_or, Bool.or_true]
  rfl

/-- An observer sees the line state of each drive, in order (R12). -/
theorem lineStates_drivesEvents (c : Configuration) (ds : List Drive) :
    lineStates c (drivesEvents c ds) = ds.map Drive.nibble := by
  simp [lineStates, writtenWords_drivesEvents, lineState_compose, Drive.nibble]

/-- The clock is low in the line states of drives exactly when it is low in the drives. -/
theorem nibbles_all_clk_low (ds : List Drive) :
    (ds.map Drive.nibble).all (fun n => !n.getLsbD 2) = ds.all (fun d => !d.clk) := by
  simp only [List.all_map, Function.comp_def, Drive.nibble_clk]

/-! ## Bit frames -/

/-- The engine sends the bits of a field in the order the claims name them (R64, R67). -/
theorem bitsMsbFirst_eq_msbFirst {m : Nat} (value : BitVec m) (n : Nat) :
    bitsMsbFirst value n = msbFirst n value.getLsbD := by
  induction n with
  | zero => rfl
  | succ n ih => simp [bitsMsbFirst, ih, msbFirst, List.range_succ_eq_map, Nat.sub_sub, Nat.add_comm 1]

/-- The bits of two fields side by side are those of the first, then those of the second (R68). -/
theorem bitsMsbFirst_append {m k : Nat} (x : BitVec m) (y : BitVec k) (n : Nat) :
    bitsMsbFirst (x ++ y) (n + k) = bitsMsbFirst x n ++ bitsMsbFirst y k := by
  induction n with
  | zero =>
    rw [Nat.zero_add, ← bitsMsbFirst_setWidth (x ++ y) (le_refl k), BitVec.setWidth_append_eq_right]
    rfl
  | succ n ih => simp [Nat.succ_add, bitsMsbFirst, ih, BitVec.getLsbD_append]

theorem pulses_cons (cs : Bool) (t : HoldName) (v : Bool) (bits : List Bool) :
    pulses cs t (v :: bits) = bitPulse cs t v ++ pulses cs t bits := rfl

theorem pulses_append (cs : Bool) (t : HoldName) (xs ys : List Bool) :
    pulses cs t (xs ++ ys) = pulses cs t xs ++ pulses cs t ys := List.flatMap_append

/-- Chip-select does not change within a bit frame (R113, R141). -/
theorem pulses_map_cs (cs : Bool) (t : HoldName) (bits : List Bool) :
    (pulses cs t bits).map Drive.cs = List.replicate (3 * bits.length) cs := by
  induction bits with
  | nil => rfl
  | cons v bits ih => simp [pulses_cons, bitPulse, ih, Nat.mul_succ, List.replicate_succ]

/-! ## The rising clock edges -/

/-- The data at the rising clock edges of drives (R119, R149). -/
def risingBits (ds : List Drive) : List Bool := risingData (ds.map Drive.nibble)

theorem samples_drivesEvents (c : Configuration) (ds : List Drive) : samples c (drivesEvents c ds) = risingBits ds := by
  rw [samples, lineStates_drivesEvents, risingBits]

theorem risingBits_singleton (d : Drive) : risingBits [d] = [] := rfl

theorem risingBits_cons_cons (d e : Drive) (ds : List Drive) :
    risingBits (d :: e :: ds) = (if !d.clk && e.clk then [e.dataOut] else []) ++ risingBits (e :: ds) := by
  simp only [risingBits, List.map_cons, risingData, Drive.nibble_clk, Drive.nibble_dataOut]

/-- Of the first drive only the clock counts: whether the second one raises it. -/
theorem risingBits_cons_congr {d e : Drive} (hclk : d.clk = e.clk) (ds : List Drive) :
    risingBits (d :: ds) = risingBits (e :: ds) := by
  cases ds with
  | nil => rfl
  | cons f ds => rw [risingBits_cons_cons, risingBits_cons_cons, hclk]

/-- A drive that leaves the clock low gives no edge. -/
theorem risingBits_cons_low (d e : Drive) (ds : List Drive) (hlow : e.clk = false) :
    risingBits (d :: e :: ds) = risingBits (e :: ds) := by
  simp [risingBits_cons_cons, hlow]

/-- After a drive with the clock low, a bit frame gives its bits and leaves the clock low. -/
theorem risingBits_low_pulses_append {low : Drive} (hlow : low.clk = false) (cs : Bool) (t : HoldName)
    (bits : List Bool) (rest : List Drive) :
    risingBits (low :: (pulses cs t bits ++ rest)) = bits ++ risingBits (low :: rest) := by
  induction bits with
  | nil => rfl
  | cons v bits ih =>
    have hend : risingBits (⟨cs, false, v, some t⟩ :: (pulses cs t bits ++ rest)) =
        risingBits (low :: (pulses cs t bits ++ rest)) := risingBits_cons_congr hlow.symm _
    simp [pulses_cons, bitPulse, risingBits_cons_cons, hlow, hend, ih]

/-- A bit frame by itself gives its bits: its first drive has the clock low (R149). -/
theorem risingBits_pulses (cs : Bool) (t : HoldName) (bits : List Bool) : risingBits (pulses cs t bits) = bits := by
  cases bits with
  | nil => rfl
  | cons v bits =>
    have hrest := risingBits_low_pulses_append (low := ⟨cs, false, v, some t⟩) rfl cs t bits []
    simpa [pulses_cons, bitPulse, risingBits_cons_cons, risingBits_singleton] using hrest

end Sys2Proof.Machine
end

section
/-! SUPPORT. The 4-wire commands, each of which sends one frame of 25 bits between the select writes and the deselect
write (R68, R140). -/

namespace Sys2Proof.Machine

open Sys2Proof.Safety

/-! ## The command sequence -/

/-- The three fields of a command sequence are one frame of 25 bits (R68). -/
theorem commandSequence_eq_frame (opc : BitVec 3) (addr : BitVec 6) (data : BitVec 16) (pause : HoldName) :
    commandSequence opc addr data pause =
      selectDrives ++ pulses true .spiBit (bitsMsbFirst (opc ++ addr ++ data) 25) ++ deselectDrives pause := by
  have hbits : bitsMsbFirst (opc ++ addr ++ data) 25 =
      bitsMsbFirst opc 3 ++ bitsMsbFirst addr 6 ++ bitsMsbFirst data 16 := by
    rw [← bitsMsbFirst_append opc addr 3, ← bitsMsbFirst_append (opc ++ addr) data 9]
  simp only [commandSequence, sendField, hbits, pulses_append, List.append_assoc]

/-- The rising clock edges of a command sequence are those of its frame: the writes around it have the clock low
(R149). -/
theorem risingBits_commandSequence (opc : BitVec 3) (addr : BitVec 6) (data : BitVec 16) (pause : HoldName) :
    risingBits (commandSequence opc addr data pause) = msbFirst 25 (opc ++ addr ++ data).getLsbD := by
  have hafter (low : Drive) : risingBits (low :: deselectDrives pause) = [] :=
    (risingBits_cons_low _ _ _ rfl).trans (risingBits_singleton _)
  simp only [commandSequence_eq_frame, selectDrives, List.cons_append, List.nil_append]
  rw [risingBits_cons_low _ _ _ rfl, risingBits_low_pulses_append rfl, hafter, List.append_nil,
    bitsMsbFirst_eq_msbFirst]

/-- Before the frame the clock is low in the two select writes. -/
theorem commandSequence_take (opc : BitVec 3) (addr : BitVec 6) (data : BitVec 16) (pause : HoldName) :
    (commandSequence opc addr data pause).take 2 = selectDrives := rfl

/-- After the frame there is the deselect write alone. -/
theorem commandSequence_drop (opc : BitVec 3) (addr : BitVec 6) (data : BitVec 16) (pause : HoldName) :
    (commandSequence opc addr data pause).drop 77 = deselectDrives pause := by
  rw [commandSequence_eq_frame]
  exact List.drop_left' (by simp [selectDrives])

/-- Chip-select is 0 in the deselect writes alone (R148). -/
theorem commandSequence_map_cs (opc : BitVec 3) (addr : BitVec 6) (data : BitVec 16) (pause : HoldName) :
    (commandSequence opc addr data pause).map Drive.cs = [false] ++ List.replicate 76 true ++ [false] := by
  simp only [commandSequence_eq_frame, List.map_append, pulses_map_cs, bitsMsbFirst_length]
  rfl

/-! ## The commands that send one -/

/-- A command that sends one command sequence, from SESSION `NONE` and back to it (R68, R140). -/
structure SendsSequence (c : Configuration) (i : Instr) (opc : BitVec 3) (addr : BitVec 6) (data : BitVec 16)
    (pause : HoldName) : Prop where
  /-- It is admitted under the 4-wire family and only sends line changes. -/
  sendable : Sendable c (some .fourwire) i
  /-- It accepts SESSION `NONE`. -/
  accepted : acceptedSession i = .none
  /-- It leaves SESSION `NONE`. -/
  result : resultSession i = .none
  /-- Its line changes are the sequence's. -/
  drives : commandDrives c (some .fourwire) i = commandSequence opc addr data pause

theorem spiWriteEnable_sendsSequence (c : Configuration) :
    SendsSequence c .spiWriteEnable c.defaults.spiOpcWen c.defaults.spiAddrWen c.defaults.spiDataWen .spiShort :=
  ⟨⟨rfl, rfl, fun _ _ _ => rfl⟩, rfl, rfl, rfl⟩

theorem spiWrite_sendsSequence (c : Configuration) (addr : BitVec 6) (data : BitVec 16) :
    SendsSequence c (.spiWrite addr data) c.defaults.spiOpcWrite addr data .spiLong :=
  ⟨⟨rfl, rfl, fun _ _ _ => rfl⟩, rfl, rfl, rfl⟩

theorem spiWriteDisable_sendsSequence (c : Configuration) :
    SendsSequence c .spiWriteDisable c.defaults.spiOpcWds c.defaults.spiAddrWds c.defaults.spiDataWds .spiShort :=
  ⟨⟨rfl, rfl, fun _ _ _ => rfl⟩, rfl, rfl, rfl⟩

/-- The three 4-wire commands of R151 each send one sequence. -/
theorem fourWireCommand_sendsSequence (c : Configuration) {i : Instr}
    (hi : i = .spiWriteEnable ∨ (∃ addr data, i = .spiWrite addr data) ∨ i = .spiWriteDisable) :
    ∃ opc addr data pause, SendsSequence c i opc addr data pause := by
  obtain rfl | ⟨addr, data, rfl⟩ | rfl := hi
  · exact ⟨_, _, _, _, spiWriteEnable_sendsSequence c⟩
  · exact ⟨_, _, _, _, spiWrite_sendsSequence c addr data⟩
  · exact ⟨_, _, _, _, spiWriteDisable_sendsSequence c⟩

/-- A command that sends a sequence completes with the sequence's 78 line changes. -/
theorem SendsSequence.exec_eq {i : Instr} {s : State} {opc : BitVec 3} {addr : BitVec 6} {data : BitVec 16}
    {pause : HoldName} (hi : SendsSequence s.config i opc addr data pause) (hrun : Running s)
    (hfam : s.family = some .fourwire) (hses : s.session = .none) (hacc : s.accepts 78) :
    exec i s = .next (finish .none (driven (commandSequence opc addr data pause) s)) := by
  have hdrives : commandDrives s.config s.family i = commandSequence opc addr data pause := hfam ▸ hi.drives
  have hlen : (commandDrives s.config s.family i).length = 78 := by rw [hdrives, commandSequence_length]
  rw [exec_completes hrun (hfam ▸ hi.sendable) (hses.trans hi.accepted.symm) (hlen.symm ▸ hacc), hi.result,
    hdrives]

end Sys2Proof.Machine
end

section
/-! PROOFS. The rules of spec/42_spi4_engine.md. -/

namespace Sys2Proof.Proofs

open Sys2Proof.Machine Sys2Proof.Safety

/-- The 78 line changes of a command sequence are 78 writes (R151). -/
theorem commandSequence_writes (c : Configuration) (opc : BitVec 3) (addr : BitVec 6) (data : BitVec 16)
    (pause : HoldName) : (writtenWords (drivesEvents c (commandSequence opc addr data pause))).length = 78 := by
  rw [writtenWords_drivesEvents, List.length_map, commandSequence_length]

/-- Settles O43: each sends one command sequence. -/
theorem fourWireCommandsMake78Writes : Obligations.FourWireCommandsMake78Writes := by
  intro i s hi hrun hfam hses hacc
  obtain ⟨opc, addr, data, pause, hsends⟩ := fourWireCommand_sendsSequence s.config hi
  exact ⟨_, _, hsends.exec_eq hrun hfam hses hacc, rfl, commandSequence_writes s.config opc addr data pause⟩

/-- The data at the rising clock edges of a field's writes are its bits (R149). -/
theorem samples_sendField (c : Configuration) {m : Nat} (width : Nat) (value : BitVec m) :
    samples c (drivesEvents c (sendField width value)) = msbFirst width value.getLsbD := by
  rw [samples_drivesEvents, sendField, risingBits_pulses, bitsMsbFirst_eq_msbFirst]

/-- A command that sends a sequence shows its frame at the rising clock edges, and the clock low around the fields
(R149). -/
theorem sequence_samples {i : Instr} {s : State} {opc : BitVec 3} {addr : BitVec 6} {data : BitVec 16}
    {pause : HoldName} (hi : SendsSequence s.config i opc addr data pause) (hrun : Running s)
    (hfam : s.family = some .fourwire) (hses : s.session = .none) (hacc : s.accepts 78) :
    ∃ t events, exec i s = .next t ∧ t.trace = s.trace ++ events ∧
      samples s.config events = msbFirst 25 (opc ++ addr ++ data).getLsbD ∧
      ((lineStates s.config events).take 2).all (fun n => !n.getLsbD 2) = true ∧
      ((lineStates s.config events).drop 77).all (fun n => !n.getLsbD 2) = true := by
  refine ⟨_, drivesEvents s.config (commandSequence opc addr data pause), hi.exec_eq hrun hfam hses hacc, rfl,
    ?samples, ?before, ?after⟩
  case samples => rw [samples_drivesEvents, risingBits_commandSequence]
  case before =>
    rw [lineStates_drivesEvents, ← List.map_take, commandSequence_take, nibbles_all_clk_low]
    rfl
  case after =>
    rw [lineStates_drivesEvents, ← List.map_drop, commandSequence_drop, nibbles_all_clk_low]
    rfl

/-- Settles O46: a field is one bit frame, and so are the three fields of a command sequence. -/
theorem fieldSamplesAreMsbFirst : Obligations.FieldSamplesAreMsbFirst := by
  refine ⟨?field, ?sequence⟩
  case field =>
    intro width value s hrun hpos hle hfits hfam hses hacc
    have hlegal : (Instr.spiSendField width value).wellFormed = true := by
      simp only [Instr.wellFormed, Bool.and_eq_true]
      exact ⟨(fieldWidthLegal_iff width).mpr ⟨hpos, hle⟩, (fieldValueLegal_iff width value).mpr hfits⟩
    have hsend : Sendable s.config s.family (.spiSendField width value) := hfam ▸ ⟨hlegal, rfl, fun _ _ _ => rfl⟩
    have haccepted : s.accepts (sendField width.toNat value).length := sendField_length width.toNat value ▸ hacc
    exact ⟨_, _, exec_completes hrun hsend hses haccepted, rfl, samples_sendField s.config width.toNat value⟩
  case sequence =>
    intro i frame s hrun hi hfam hses hacc
    obtain ⟨rfl, rfl⟩ | ⟨addr, data, rfl, rfl⟩ | ⟨rfl, rfl⟩ := hi
    · exact sequence_samples (spiWriteEnable_sendsSequence s.config) hrun hfam hses hacc
    · exact sequence_samples (spiWrite_sendsSequence s.config addr data) hrun hfam hses hacc
    · exact sequence_samples (spiWriteDisable_sendsSequence s.config) hrun hfam hses hacc

/-- Settles O47: the chip-select values an observer sees are those of the sequence's line changes. -/
theorem chipSelectHeldThroughACommand : Obligations.ChipSelectHeldThroughACommand := by
  intro i s hi hrun hfam hses hacc
  obtain ⟨opc, addr, data, pause, hsends⟩ := fourWireCommand_sendsSequence s.config hi
  refine ⟨_, _, hsends.exec_eq hrun hfam hses hacc, rfl, ?_⟩
  calc (lineStates s.config (drivesEvents s.config (commandSequence opc addr data pause))).map (·.getLsbD 3)
    _ = (commandSequence opc addr data pause).map Drive.cs := by
        rw [lineStates_drivesEvents, List.map_map]
        exact List.map_congr_left fun d _ => d.nibble_cs
    _ = [false] ++ List.replicate 76 true ++ [false] := commandSequence_map_cs opc addr data pause

/-- Settles O48: under the source's values both commands send the same sequence. -/
theorem writeEnableEqualsWriteDisable : Obligations.WriteEnableEqualsWriteDisable := by
  intro s hrun hfam hses hacc hopcWen hopcWds haddrWen haddrWds hdataWen hdataWds
  have henable := (spiWriteEnable_sendsSequence s.config).exec_eq hrun hfam hses hacc
  have hdisable := (spiWriteDisable_sendsSequence s.config).exec_eq hrun hfam hses hacc
  rw [hopcWen, haddrWen, hdataWen] at henable
  rw [hopcWds, haddrWds, hdataWds] at hdisable
  exact ⟨_, _, henable, hdisable, rfl, commandSequence_writes s.config 4#3 0#6 0#16 .spiShort⟩

end Sys2Proof.Proofs
end

section
/-! SUPPORT. What the checks and the pseudocode of a command make of it, whatever the port bus answers: a fault before any
write (R204, R206), or its line changes, which a failed write cuts (R205). -/

namespace Sys2Proof.Machine

open Sys2Proof.Safety

/-! ## Faults before any write -/

/-- A command whose family check fails raises FamilyError (R204). -/
theorem command_wrongFamily {i : Instr} {need : FamilyNeed} {accepted : Session} {body : State → State} {s : State}
    (hrun : Running s) (hwf : i.wellFormed = true) (hfam : familyMatches need s.family = false) :
    command i need accepted body s = .next (takeFault .familyError (encode i) s) := by
  simp [command, (s.halted_eq_false_iff).mpr hrun, hwf, hfam]

/-- A command whose session check fails raises SequenceError (R206). -/
theorem command_wrongSession {i : Instr} {need : FamilyNeed} {accepted : Session} {body : State → State} {s : State}
    (hrun : Running s) (hwf : i.wellFormed = true) (hfam : familyMatches need s.family = true)
    (hses : s.session ≠ accepted) :
    command i need accepted body s = .next (takeFault .sequenceError (encode i) s) := by
  simp [command, (s.halted_eq_false_iff).mpr hrun, hwf, hfam, hses]

theorem exec_wrongFamily {i : Instr} {s : State} (hrun : Running s) (hwf : i.wellFormed = true)
    (hfam : familyAdmits i s.family = false) : exec i s = .next (takeFault .familyError (encode i) s) := by
  obtain ⟨need, hneed, heq⟩ := exec_eq_command i s
  rw [heq, command_wrongFamily hrun hwf ((hneed s.family).trans hfam)]

theorem exec_wrongSession {i : Instr} {s : State} (hrun : Running s) (hwf : i.wellFormed = true)
    (hfam : familyAdmits i s.family = true) (hses : s.session ≠ acceptedSession i) :
    exec i s = .next (takeFault .sequenceError (encode i) s) := by
  obtain ⟨need, hneed, heq⟩ := exec_eq_command i s
  rw [heq, command_wrongSession hrun hwf ((hneed s.family).trans hfam) hses]

/-! ## The pseudocode of an admitted command -/

/-- A command that passes the common checks runs its own pseudocode (R201). -/
theorem exec_admitted {i : Instr} {s : State} (hadm : Admitted i s) :
    exec i s = .next (commandBody s.config s.family i s) := by
  obtain ⟨need, hneed, heq⟩ := exec_eq_command i s
  rw [heq, command_admitted hadm.running hadm.wellFormed ((hneed s.family).trans hadm.family) hadm.session]

/-- A second `SET_FAMILY` raises SequenceError (R206). -/
theorem latchFamily_of_set {s : State} (hset : s.family ≠ Option.none) (fam : Family) :
    latchFamily fam s = takeFault .sequenceError (encode (.setFamily fam)) s := by
  obtain ⟨f, hf⟩ := Option.ne_none_iff_exists'.mp hset
  simp [latchFamily, hf]

/-- A `SET_FAMILY` that completes appends no event (R170). -/
theorem latchFamily_trace_of_running {fam : Family} {s : State} (hrun : Running (latchFamily fam s)) :
    (latchFamily fam s).trace = s.trace := by
  by_cases hset : s.family = Option.none
  · simp [latchFamily, hset]
  · rw [latchFamily_of_set hset fam] at hrun
    exact absurd hrun (FaultCause.code_ne_zero .sequenceError)

/-- The parameters and FAMILY alone decide whether `PROGRAM` sends its line changes or faults before any (R171). -/
theorem runProgram_cases (addr : Byte) (value : BitVec 16) (c : Configuration) (latch : Option Family) :
    (∀ s : State, s.config = c → s.family = latch → runProgram addr value s =
      transmit (.program addr value) (commandDrives c latch (.program addr value)) .none s) ∨
    (∃ cause, ∀ s : State, s.family = latch →
      runProgram addr value s = takeFault cause (encode (.program addr value)) s) := by
  cases latch with
  | none => exact .inr ⟨.familyError, fun s hfam => by simp [runProgram, hfam]⟩
  | some f =>
    cases hrange : programInRange addr value f with
    | true => exact .inl fun s hconf hfam => by simp [runProgram, commandDrives, hconf, hfam, hrange]
    | false => exact .inr ⟨.illegalCommand, fun s hfam => by simp [runProgram, hfam, hrange]⟩

/-- An admitted command that leaves the engine running and writes is one that sends its line changes, and would in every
state with the same parameters and FAMILY, whatever its port bus answers. -/
theorem sendable_of_writes {i : Instr} {s : State} {events : List Event} (hadm : Admitted i s)
    (hrun : Running (commandBody s.config s.family i s))
    (htrace : (commandBody s.config s.family i s).trace = s.trace ++ events) (hwrites : writtenWords events ≠ []) :
    Sendable s.config s.family i := by
  refine ⟨hadm.wellFormed, hadm.family, ?_⟩
  cases i
  case setFamily fam =>
    have hnone : events = [] :=
      List.self_eq_append_right.mp ((latchFamily_trace_of_running hrun).symm.trans htrace)
    exact absurd (hnone ▸ rfl) hwrites
  case program addr value =>
    rcases runProgram_cases addr value s.config s.family with hsends | ⟨cause, hfault⟩
    · exact hsends
    · have hbody : commandBody s.config s.family (.program addr value) s = takeFault cause _ s := hfault s rfl
      rw [hbody] at hrun
      exact absurd hrun cause.code_ne_zero
  all_goals exact fun _ _ _ => rfl

/-- A command that completes with writes sends its line changes, and they are its writes and holds. -/
theorem sendable_of_completed_writes {i : Instr} {s t : State} {events : List Event} (h : exec i s = .next t)
    (hrun : Running t) (htrace : t.trace = s.trace ++ events) (hwrites : writtenWords events ≠ []) :
    Admitted i s ∧ Sendable s.config s.family i ∧
      events = drivesEvents s.config (commandDrives s.config s.family i) := by
  have hsend (hadm : Admitted i s) : Sendable s.config s.family i := by
    obtain rfl : commandBody s.config s.family i s = t := by simpa [exec_admitted hadm] using h
    exact sendable_of_writes hadm hrun htrace hwrites
  obtain ⟨_, heff⟩ := exec_effect h
  cases heff with
  | faulted cause => exact absurd hrun cause.code_ne_zero
  | writeFailed => exact absurd hrun (FaultCause.code_ne_zero .portWriteFailure)
  | completed hadm => exact ⟨hadm, hsend hadm, (List.append_cancel_left htrace).symm⟩
  | latched _ _ hadm =>
    have hnone : events = [] := List.self_eq_append_right.mp htrace
    exact absurd (hnone ▸ rfl) hwrites

/-! ## A failed write -/

@[simp] theorem broken_trace (ds : List Drive) (s : State) :
    (broken ds s).trace = s.trace ++ drivesEvents s.config ds := rfl

/-- A sendable command in its SESSION, of which the port bus accepts `k` writes and fails the next, stops there (R205). -/
theorem exec_writeFails {i : Instr} {s : State} {k : Nat} (hrun : Running s) (hi : Sendable s.config s.family i)
    (hses : s.session = acceptedSession i) (hk : k < (commandDrives s.config s.family i).length)
    (hacc : s.accepts k) (hfail : s.answer k = .failed) :
    exec i s = .next (takeFault .portWriteFailure (encode i)
      (broken ((commandDrives s.config s.family i).take k) s)) := by
  rw [exec_admitted ⟨hrun, hi.wellFormed, hi.family, hses⟩, hi.body s rfl rfl]
  simp [transmit, driveAll_failed _ s k hk hacc hfail]

/-! ## Line changes with their holds -/

/-- A hold follows each of the line changes (R101). -/
def AllHeld (ds : List Drive) : Prop := ∀ d ∈ ds, d.hold.isSome = true

@[simp] theorem allHeld_nil : AllHeld [] := by simp [AllHeld]

@[simp] theorem allHeld_cons (d : Drive) (ds : List Drive) :
    AllHeld (d :: ds) ↔ d.hold.isSome = true ∧ AllHeld ds := List.forall_mem_cons

@[simp] theorem allHeld_append (xs ys : List Drive) : AllHeld (xs ++ ys) ↔ AllHeld xs ∧ AllHeld ys :=
  List.forall_mem_append

@[simp] theorem allHeld_bitPulse (cs : Bool) (t : HoldName) (v : Bool) : AllHeld (bitPulse cs t v) := by
  simp [bitPulse]

@[simp] theorem allHeld_pulses (cs : Bool) (t : HoldName) (bits : List Bool) : AllHeld (pulses cs t bits) := by
  induction bits with
  | nil => exact allHeld_nil
  | cons v bits ih => simp [pulses_cons, ih]

@[simp] theorem allHeld_writeTransaction (c : Configuration) (addr val : Byte) :
    AllHeld (writeTransaction c addr val) := by
  simp [writeTransaction, initDrives, startDrives, sendByte, sendBit, stopDrives]

@[simp] theorem allHeld_commandSequence (opc : BitVec 3) (addr : BitVec 6) (data : BitVec 16) (pause : HoldName) :
    AllHeld (commandSequence opc addr data pause) := by
  simp [commandSequence, selectDrives, sendField, deselectDrives]

/-- `PROGRAM` serves a hold after each of its writes (R171). -/
theorem allHeld_programDrives (c : Configuration) (addr : Byte) (value : BitVec 16) (f : Family) :
    AllHeld (programDrives c addr value f) := by
  cases f <;> simp [programDrives, writeEnableDrives, writeDrives, writeDisableDrives]

/-- Every write of a command before its last one has its hold: `SET_LINES`, which has none, writes once (R100, R101). -/
theorem allHeld_take_commandDrives {c : Configuration} {latch : Option Family} {i : Instr} {k : Nat}
    (hk : k < (commandDrives c latch i).length) : AllHeld ((commandDrives c latch i).take k) := by
  have htake (hheld : AllHeld (commandDrives c latch i)) : AllHeld ((commandDrives c latch i).take k) :=
    fun d hd => hheld d (List.mem_of_mem_take hd)
  cases i
  case setLines =>
    obtain rfl : k = 0 := Nat.lt_one_iff.mp hk
    exact allHeld_nil
  case program addr value =>
    cases latch with
    | none => exact htake allHeld_nil
    | some f => exact htake (allHeld_programDrives c addr value f)
  all_goals
    apply htake
    simp [commandDrives, initDrives, startDrives, sendBit, sendByte, stopDrives, selectDrives, sendField,
      deselectDrives, writeEnableDrives, writeDrives, writeDisableDrives]

/-- A held line change gives two events, its write and its hold. -/
theorem driveEvents_length_of_held {d : Drive} (hheld : d.hold.isSome = true) (c : Configuration) :
    (driveEvents c d).length = 2 := by
  obtain ⟨t, ht⟩ := Option.isSome_iff_exists.mp hheld
  simp [driveEvents, ht]

theorem drivesEvents_length_of_allHeld {ds : List Drive} (hheld : AllHeld ds) (c : Configuration) :
    (drivesEvents c ds).length = 2 * ds.length := by
  induction ds with
  | nil => rfl
  | cons d ds ih =>
    obtain ⟨hfirst, hrest⟩ := (allHeld_cons d ds).mp hheld
    have hcons : drivesEvents c (d :: ds) = driveEvents c d ++ drivesEvents c ds := rfl
    rw [hcons, List.length_append, driveEvents_length_of_held hfirst, ih hrest, List.length_cons]
    omega

/-- The first `2 * k` events of line changes are those of the first `k`, if these have their holds. -/
theorem drivesEvents_take {ds : List Drive} {k : Nat} (hk : k ≤ ds.length) (hheld : AllHeld (ds.take k))
    (c : Configuration) : (drivesEvents c ds).take (2 * k) = drivesEvents c (ds.take k) := by
  have hsplit : drivesEvents c ds = drivesEvents c (ds.take k) ++ drivesEvents c (ds.drop k) := by
    rw [drivesEvents, drivesEvents, drivesEvents, ← List.flatMap_append, List.take_append_drop]
  rw [hsplit]
  exact List.take_left' (by rw [drivesEvents_length_of_allHeld hheld, List.length_take_of_le hk])

end Sys2Proof.Machine
end

section
/-! PROOFS. The rules of spec/60_exceptions.md. -/

namespace Sys2Proof.Proofs

open Sys2Proof.Machine Sys2Proof.Safety

/-- Settles O34: the command sends its line changes in both runs, and those before the failing write are held. -/
theorem failedWriteStopsTheCommand : Obligations.FailedWriteStopsTheCommand := by
  intro i s t events k hrun hexec hrunT htrace hk hacc hfail
  have hwrites : writtenWords events ≠ [] := List.ne_nil_of_length_pos (Nat.zero_lt_of_lt hk)
  obtain ⟨hadm, hsend, rfl⟩ := sendable_of_completed_writes hexec hrunT htrace hwrites
  rw [writtenWords_drivesEvents, List.length_map] at hk
  refine ⟨_, exec_writeFails hrun hsend hadm.session hk hacc hfail, ?_, rfl, rfl, rfl, rfl, rfl, rfl, rfl, _, rfl⟩
  rw [takeFault_trace, broken_trace, drivesEvents_take hk.le (allHeld_take_commandDrives hk), FaultCause.code]

/-- Settles O30: the family check stands before the command's own pseudocode. -/
theorem wrongFamilyRaisesFamilyError : Obligations.WrongFamilyRaisesFamilyError :=
  fun _ _ => exec_wrongFamily

/-- Settles O31: the session check stands before the command's own pseudocode, and a second `SET_FAMILY` that passes it
faults in its own. -/
theorem wrongSessionRaisesSequenceError : Obligations.WrongSessionRaisesSequenceError := by
  intro i s hrun hwf hfam hwrong
  by_cases hses : s.session = acceptedSession i
  · obtain ⟨fam, rfl, hset⟩ := hwrong.resolve_left (not_not_intro hses)
    rw [exec_admitted ⟨hrun, hwf, hfam, hses⟩]
    exact congrArg _ (latchFamily_of_set hset fam)
  · exact exec_wrongSession hrun hwf hfam hses

end Sys2Proof.Proofs
end

section
/-! SUPPORT. The encoder of spec/30_encoding.md section 4 in arithmetic: an encoded command is its opcode above the
value of its operand fields, from which the decoder reads the operands back. -/

namespace Sys2Proof.Machine

open Sys2Proof.Safety

/-! ## Encoded words -/

/-- The value of a command's operand fields, which stand in the low bits of its word (R71, R72). -/
def operandValue : Instr → Nat
  | .setLines cs clk dataOut => cs.toNat * 4 + clk.toNat * 2 + dataOut.toNat
  | .i2cSendBit v => v.toNat
  | .i2cSendByte b => b.toNat
  | .i2cWrite addr val => addr.toNat * 2 ^ 8 + val.toNat
  | .spiSendField width value => width.toNat * 2 ^ 16 + value.toNat
  | .spiDeselect pause => (bitOfPause pause).toNat
  | .spiWrite addr data => addr.toNat * 2 ^ 16 + data.toNat
  | .setFamily fam => (bitOfFamily fam).toNat
  | .program addr value => addr.toNat * 2 ^ 16 + value.toNat
  | _ => 0

/-- Two fields side by side fit the sum of their widths. -/
theorem toNat_mul_add_lt {m n : Nat} (x : BitVec m) (y : BitVec n) : x.toNat * 2 ^ n + y.toNat < 2 ^ (m + n) :=
  Laws.toNat_append_eq x y ▸ (x ++ y).isLt

/-- The operand fields take up no more bits than the opcode's row gives them. -/
theorem operandValue_lt (i : Instr) : operandValue i < 2 ^ operandBits (Laws.opcodeNibble i) := by
  cases i
  case setLines cs clk dataOut => revert cs clk dataOut; decide
  case i2cSendBit v => revert v; decide
  case i2cSendByte b => exact b.isLt
  case i2cWrite addr val => exact toNat_mul_add_lt addr val
  case spiSendField width value => exact toNat_mul_add_lt width value
  case spiDeselect pause => cases pause <;> decide
  case spiWrite addr data => exact toNat_mul_add_lt addr data
  case setFamily fam => cases fam <;> decide
  case program addr value => exact toNat_mul_add_lt addr value
  all_goals decide

/-- An encoded command is its opcode above the value of its operand fields (R70, R71). -/
theorem encode_toNat (i : Instr) :
    (encode i).toNat = (Laws.opcodeNibble i).toNat * 2 ^ 28 + operandValue i := by
  cases i
  case i2cInit | i2cStart | i2cStop | spiSelect | spiWriteEnable | spiWriteDisable => rfl
  all_goals
    simp only [encode, Laws.opcodeNibble, operandValue, Laws.toNat_append_eq, BitVec.toNat_ofNat, BitVec.toNat_ofBool]
    omega

theorem operandValue_lt_28 (i : Instr) : operandValue i < 2 ^ 28 :=
  (operandValue_lt i).trans_le (Nat.pow_le_pow_right (by decide) (operandBits_le _))

theorem opcodeOf_encode (i : Instr) : opcodeOf (encode i) = Laws.opcodeNibble i := by
  have hop := (Laws.opcodeNibble i).isLt
  have hlow := operandValue_lt_28 i
  apply BitVec.eq_of_toNat_eq
  rw [opcodeOf, Laws.bitField_toNat, encode_toNat]
  omega

/-- Below the opcode the bits of an encoded command are those of its operand value. -/
theorem bitField_encode_toNat (i : Instr) {lo len : Nat} (hfits : lo + len ≤ 28) :
    (bitField lo len (encode i)).toNat = operandValue i / 2 ^ lo % 2 ^ len := by
  have hlow : (encode i).toNat % 2 ^ (lo + len) = operandValue i % 2 ^ (lo + len) := by
    rw [encode_toNat, Nat.add_mod, Nat.mod_eq_zero_of_dvd (Dvd.dvd.mul_left (Nat.pow_dvd_pow 2 hfits) _), Nat.zero_add,
      Nat.mod_mod]
  rw [Laws.bitField_toNat, ← Nat.mod_mul_right_div_self, ← Nat.mod_mul_right_div_self, ← pow_add, hlow]

/-- An encoded command has no reserved bit (R70). -/
theorem reservedClear_encode (i : Instr) : reservedClear (operandBits (Laws.opcodeNibble i)) (encode i) = true := by
  have hlow := operandValue_lt i
  have hfield := bitField_encode_toNat i (lo := 0) (len := 28) le_rfl
  rw [Nat.pow_zero, Nat.div_one, Nat.mod_eq_of_lt (operandValue_lt_28 i)] at hfield
  simpa [reservedClear, hfield] using hlow

/-- The upper of two operand fields (R71). -/
theorem bitField_encode_upper {i : Instr} {m n : Nat} {x : BitVec m} {y : BitVec n}
    (hi : operandValue i = x.toNat * 2 ^ n + y.toNat) (hfits : n + m ≤ 28) : bitField n m (encode i) = x := by
  apply BitVec.eq_of_toNat_eq
  rw [bitField_encode_toNat i hfits, hi, Nat.mul_comm, Nat.mul_add_div (Nat.two_pow_pos n),
    Nat.div_eq_of_lt y.isLt, Nat.add_zero, Nat.mod_eq_of_lt x.isLt]

/-- The lowest operand field (R71). -/
theorem bitField_encode_lower {i : Instr} {n k : Nat} {y : BitVec n}
    (hi : operandValue i = k * 2 ^ n + y.toNat) (hfits : 0 + n ≤ 28) : bitField 0 n (encode i) = y := by
  apply BitVec.eq_of_toNat_eq
  rw [bitField_encode_toNat i hfits, hi, Nat.pow_zero, Nat.div_one, Nat.mul_add_mod_self_right,
    Nat.mod_eq_of_lt y.isLt]

/-! ## Decoding an encoded command -/

/-- The decoder's row for a command's opcode reads the command's word, as it has no reserved bit. -/
theorem decode_encode_of_row {i : Instr} {n : Nat} {r : Except DecodeError Instr}
    (hrow : opcodeOf (encode i) = Laws.opcodeNibble i → decode (encode i) = withReserved n (encode i) r)
    (hn : operandBits (Laws.opcodeNibble i) = n := by rfl) : decode (encode i) = r := by
  rw [hrow (opcodeOf_encode i), withReserved, if_pos (hn ▸ reservedClear_encode i)]

/-- The decoder gives every well-formed command back (R71, R73). -/
theorem decode_encode (i : Instr) (hwf : i.wellFormed = true) : decode (encode i) = .ok i := by
  cases i
  case setLines cs clk dataOut => revert cs clk dataOut; decide
  case i2cSendBit v => revert v; decide
  case spiDeselect pause => cases pause <;> decide
  case setFamily fam => cases fam <;> decide
  case i2cSendByte b =>
    rw [decode_encode_of_row decode_of_i2cSendByte, bitField_encode_lower (k := 0) (Nat.zero_add _).symm (by decide)]
  case i2cWrite addr val =>
    rw [decode_encode_of_row decode_of_i2cWrite, bitField_encode_upper rfl (by decide),
      bitField_encode_lower rfl (by decide)]
  case spiSendField width value =>
    rw [decode_encode_of_row decode_of_spiSendField, bitField_encode_upper rfl (by decide),
      bitField_encode_lower rfl (by decide), decodeField_eq_ok_iff]
    simpa [Instr.wellFormed] using hwf
  case spiWrite addr data =>
    rw [decode_encode_of_row decode_of_spiWrite, bitField_encode_upper rfl (by decide),
      bitField_encode_lower rfl (by decide)]
  case program addr value =>
    rw [decode_encode_of_row decode_of_program, bitField_encode_upper rfl (by decide),
      bitField_encode_lower rfl (by decide)]
  all_goals decide

/-! ## Encoding a decoded word -/

/-- A word with a command's opcode, no reserved bit and the command's operand value is the command's encoding. -/
theorem encode_eq_of_row {w : Word} {i : Instr} {n : Nat} (hop : opcodeOf w = Laws.opcodeNibble i)
    (hclear : reservedClear n w = true) (hn : n ≤ 28) (hvalue : operandValue i = w.toNat % 2 ^ n) : encode i = w := by
  have hop' : w.toNat / 2 ^ 28 % 2 ^ 4 = (Laws.opcodeNibble i).toNat := by
    rw [← hop, opcodeOf, Laws.bitField_toNat]
  have hlow : w.toNat % 2 ^ 28 < 2 ^ n := by
    simpa [reservedClear, Laws.bitField_toNat] using hclear
  have hmod : w.toNat % 2 ^ n = w.toNat % 2 ^ 28 := by
    rw [← Nat.mod_mod_of_dvd _ (Nat.pow_dvd_pow 2 hn), Nat.mod_eq_of_lt hlow]
  have hw := w.isLt
  apply BitVec.eq_of_toNat_eq
  rw [encode_toNat, hvalue, hmod]
  omega

theorem getLsbD_toNat (w : Word) (k : Nat) : (w.getLsbD k).toNat = w.toNat / 2 ^ k % 2 := by
  rw [BitVec.getLsbD, Nat.toNat_testBit]

@[simp] theorem bitOfPause_pauseOfBit (b : Bool) : bitOfPause (pauseOfBit b) = b := by cases b <;> rfl

@[simp] theorem bitOfFamily_familyOfBit (b : Bool) : bitOfFamily (familyOfBit b) = b := by cases b <;> rfl

/-- The operands that two adjacent fields give are the low bits they are read from. -/
theorem fields_toNat (m n : Nat) (w : Word) :
    (bitField n m w).toNat * 2 ^ n + (bitField 0 n w).toNat = w.toNat % 2 ^ (n + m) := by
  rw [Laws.bitField_toNat, Laws.bitField_toNat, Nat.pow_zero, Nat.div_one, pow_add, Nat.mod_mul, Nat.add_comm,
    Nat.mul_comm]

/-- What a row other than that of fields decodes to is a well-formed command with the word as its encoding. -/
theorem encodes_of_plainRow {w : Word} {k n : Nat} {i j : Instr} (hop : (opcodeOf w).toNat = k)
    (h : withReserved n w (.ok i) = .ok j) (hopcode : (Laws.opcodeNibble i).toNat = k) (hwf : i.wellFormed = true)
    (hn : n ≤ 28) (hvalue : operandValue i = w.toNat % 2 ^ n) : j.wellFormed = true ∧ encode j = w := by
  obtain ⟨hclear, hij⟩ := (withReserved_eq_ok_iff n w _ _).mp h
  cases hij
  exact ⟨hwf, encode_eq_of_row (BitVec.eq_of_toNat_eq (hop.trans hopcode.symm)) hclear hn hvalue⟩

/-- A word decodes to a well-formed command alone, of which it is the encoding (R71, R73). -/
theorem encode_of_decode {w : Word} {i : Instr} (h : decode w = .ok i) : i.wellFormed = true ∧ encode i = w := by
  unfold decode at h
  split at h
  case h_9 hop =>
    obtain ⟨hclear, hfield⟩ := (withReserved_eq_ok_iff _ w _ _).mp h
    obtain ⟨hwidth, hvalue, rfl⟩ := (decodeField_eq_ok_iff _ _ i).mp hfield
    exact ⟨by simp [Instr.wellFormed, hwidth, hvalue],
      encode_eq_of_row (BitVec.eq_of_toNat_eq hop) hclear (by decide) (fields_toNat 5 16 w)⟩
  case h_16 => simp at h
  all_goals
    refine encodes_of_plainRow ‹_› h rfl rfl (by decide) ?_
    simp only [operandValue, getLsbD_toNat, bitOfPause_pauseOfBit, bitOfFamily_familyOfBit,
      Laws.bitField_toNat]
    omega

end Sys2Proof.Machine
end

section
/-! PROOFS. The remaining statements of spec/30_encoding.md: the round trips of the decoder and of the assembler. -/

namespace Sys2Proof.Proofs

open Sys2Proof.Machine Sys2Proof.Safety

/-- Settles O1: an encoded command is its opcode above its operand fields, and the decoder reads both. -/
theorem decodeInvertsEncode : Obligations.DecodeInvertsEncode := decode_encode

/-- Settles O2: the row a word decodes by has the word's opcode, and its operand fields hold the word's other bits. -/
theorem encodeInvertsDecode : Obligations.EncodeInvertsDecode := fun _ _ => encode_of_decode

/-- Settles O5, by evaluation of the decoder. -/
theorem knownWordsDecode : Obligations.KnownWordsDecode := by
  unfold Obligations.KnownWordsDecode
  decide

/-- A line value, written as a number, is read back (R75). -/
theorem asBit_toNat (b : Bool) : asBit b.toNat = some b := by
  cases b <;> rfl

/-- An operand, written as a number, fits its field and is read back (R75). -/
theorem asField_toNat {len : Nat} (x : BitVec len) : asField len x.toNat = some x := by
  rw [asField, if_pos x.isLt, BitVec.ofNat_toNat, BitVec.setWidth_eq]

theorem assemble_disassemble (i : Instr) : assemble (disassemble i) = some i := by
  cases i
  case spiDeselect pause => cases pause <;> simp [disassemble, assemble]
  case setFamily fam => cases fam <;> simp [disassemble, assemble]
  all_goals simp [disassemble, assemble, asBit_toNat, asField_toNat]

/-- Settles O6: the mnemonic and the number of operands give the command's form, and each operand is read back. -/
theorem assemblerInvertsDisassembler : Obligations.AssemblerInvertsDisassembler :=
  ⟨assemble_disassemble, by simp [assemble], fun v => by simp [assemble, asField_toNat]⟩

end Sys2Proof.Proofs
end

section
/-! SUPPORT. What a command and a step do to the trace, to the port bus and to the note that the register has been
written, read off the outcomes that `Effect` and `step_cases` list. -/

namespace Sys2Proof.Machine

open Sys2Proof.Safety

/-! ## Events of drives -/

theorem drivesEvents_cons (c : Configuration) (d : Drive) (ds : List Drive) :
    drivesEvents c (d :: ds) = driveEvents c d ++ drivesEvents c ds := rfl

theorem drivesEvents_append (c : Configuration) (xs ys : List Drive) :
    drivesEvents c (xs ++ ys) = drivesEvents c xs ++ drivesEvents c ys := List.flatMap_append

/-- Every write of a drive goes to `GPIO_ADDR` and is the composed word of a line change (R52, R61). -/
theorem write_mem_drivesEvents {c : Configuration} {ds : List Drive} {a : Nat} {w : Word}
    (h : .write a w ∈ drivesEvents c ds) : a = c.gpioAddr ∧ ∃ cs clk dataOut, w = compose c cs clk dataOut := by
  obtain ⟨d, _, hd⟩ := List.mem_flatMap.mp h
  obtain ⟨rfl, rfl⟩ : a = c.gpioAddr ∧ w = compose c d.cs d.clk d.dataOut := by simpa [driveEvents] using hd
  exact ⟨rfl, _, _, _, rfl⟩

/-- Drives append no `F` event (R101). -/
theorem not_isFault_of_mem_drivesEvents {c : Configuration} {ds : List Drive} {e : Event}
    (h : e ∈ drivesEvents c ds) : isFault e = false := by
  obtain ⟨d, _, hd⟩ := List.mem_flatMap.mp h
  obtain rfl | ⟨t, _, rfl⟩ : e = .write c.gpioAddr (compose c d.cs d.clk d.dataOut) ∨
      ∃ t, d.hold = some t ∧ e = .hold t := by simpa [driveEvents, eq_comm] using hd
  · rfl
  · rfl

theorem drivesEvents_filter_isFault (c : Configuration) (ds : List Drive) :
    (drivesEvents c ds).filter isFault = [] :=
  List.filter_eq_nil_iff.mpr fun _ he => by simp [not_isFault_of_mem_drivesEvents he]

theorem drivesEvents_all_not_isFault (c : Configuration) (ds : List Drive) :
    (drivesEvents c ds).all (fun e => !isFault e) = true :=
  List.all_eq_true.mpr fun _ he => by simp [not_isFault_of_mem_drivesEvents he]

theorem writtenWords_drivesEvents_length (c : Configuration) (ds : List Drive) :
    (writtenWords (drivesEvents c ds)).length = ds.length := by
  rw [writtenWords_drivesEvents, List.length_map]

/-- The last word that drives write is the one LINES then holds (R21, R42). -/
theorem drivenLines_eq_of_getLast? {c : Configuration} {ds : List Drive} {w : Word} (l : Word)
    (h : (writtenWords (drivesEvents c ds)).getLast? = some w) : drivenLines c ds l = w := by
  rw [writtenWords_drivesEvents, List.getLast?_map] at h
  rw [drivenLines, h, Option.getD_some]

/-! ## The state after drives -/

section Drives

variable (ds : List Drive) (s : State)

@[simp] theorem driven_trace : (driven ds s).trace = s.trace ++ drivesEvents s.config ds := rfl
@[simp] theorem driven_registerWritten :
    (driven ds s).registerWritten = (s.registerWritten || decide (0 < ds.length)) := rfl
@[simp] theorem driven_bus : (driven ds s).bus = (s.spent ds.length).bus := rfl
@[simp] theorem driven_draws : (driven ds s).draws = (s.spent ds.length).draws := rfl

/-- A failed write uses one more answer of the port bus (R205). -/
@[simp] theorem broken_bus : (broken ds s).bus = (s.spent (ds.length + 1)).bus := by
  rw [← State.spent_spent]; rfl

/-- A failed write draws LINES (R205). -/
@[simp] theorem broken_draws : (broken ds s).draws = (s.spent (ds.length + 1)).draws + 1 := by
  rw [← State.spent_spent]; rfl

/-- A failed write counts as a write of the register (log entry 19). -/
@[simp] theorem broken_registerWritten : (broken ds s).registerWritten = true := Bool.or_true _

end Drives

/-! ## Faults -/

theorem FaultCause.code_toNat_le (cause : FaultCause) : cause.code.toNat ≤ 4 := by
  cases cause <;> decide

theorem FaultCause.code_eq_four_iff (cause : FaultCause) : cause.code = 4#3 ↔ cause = .portWriteFailure := by
  cases cause <;> decide

theorem FaultCause.code_ne_four {cause : FaultCause} (h : cause ≠ .portWriteFailure) : cause.code ≠ 4#3 :=
  mt cause.code_eq_four_iff.mp h

theorem not_running_takeFault {cause : FaultCause} {cmd : Word} {s : State} : ¬ Running (takeFault cause cmd s) :=
  cause.code_ne_zero

/-- A running engine has not recorded PortWriteFailure. -/
theorem code_ne_four_of_running {s : State} (h : Running s) : s.fault.code ≠ 4#3 := by
  rw [h]; decide

/-! ## Commands and steps, halted and running -/

/-- The SESSION that a command leaves open is one of the engine that FAMILY names (R25, R172). -/
theorem family_of_resultSession {i : Instr} {latch : Option Family} (h : familyAdmits i latch = true) :
    (resultSession i = .i2cReady ∨ resultSession i = .i2cStarted → latch = some .i2c) ∧
      (resultSession i = .spiSelected → latch = some .fourwire) := by
  cases i <;> simp_all [resultSession, familyAdmits]

/-- A command of a running engine answers a next state, whatever it is (R201). -/
theorem exec_next_of_running {s : State} (hrun : Running s) (i : Instr) : ∃ t, exec i s = .next t := by
  obtain ⟨need, _, heq⟩ := exec_eq_command i s
  rw [heq]
  rcases command_cases i need (acceptedSession i) (commandBody s.config s.family i) s with
    ⟨hhalt, _⟩ | ⟨_, _, h⟩ | ⟨_, _, _, h⟩ | ⟨_, _, _, _, h⟩ | ⟨_, _, _, _, h⟩
  · exact absurd hrun hhalt
  all_goals exact ⟨_, h⟩

/-- A command asked of a halted engine is a stop (R209). -/
theorem exec_of_halted {s : State} (hhalt : ¬ Running s) (i : Instr) : exec i s = .fault .halted := by
  obtain ⟨need, _, heq⟩ := exec_eq_command i s
  rw [heq, command, if_pos (s.halted_eq_true_iff.mpr hhalt)]

theorem step_of_halted {s : State} (hhalt : ¬ Running s) : step s = .fault .halted := by
  rw [step, if_pos (s.halted_eq_true_iff.mpr hhalt)]

theorem step_of_no_command {s : State} (hrun : Running s) (hfetch : s.fetch = Option.none) : step s = .next s := by
  simp [step, s.halted_eq_false_iff.mpr hrun, hfetch]

theorem step_of_decode {s : State} {w : Word} {i : Instr} (hrun : Running s) (hfetch : s.fetch = some w)
    (hdec : decode w = .ok i) : step s = exec i s := by
  simp [step, s.halted_eq_false_iff.mpr hrun, hfetch, hdec]

/-- A step of a running engine answers a next state (R201). -/
theorem step_next_of_running {s : State} (hrun : Running s) : ∃ t, step s = .next t := by
  cases hfetch : s.fetch with
  | none => exact ⟨s, step_of_no_command hrun hfetch⟩
  | some w =>
    cases hdec : decode w with
    | error e => exact ⟨_, step_of_decode_error hrun hfetch hdec⟩
    | ok i => exact step_of_decode hrun hfetch hdec ▸ exec_next_of_running hrun i

/-! ## The outcomes of a step -/

/-- The next states of a step. Each fault records the word at `pc`; `ds` are the line changes whose writes the port bus
accepted. -/
inductive StepEffect (s : State) : State → Prop
  /-- No command is at `pc` (R231). -/
  | waited (hfetch : s.fetch = Option.none) : StepEffect s s
  /-- A fault before any write (R203, R204, R206). -/
  | faulted {w : Word} (hfetch : s.fetch = some w) (cause : FaultCause) (hcause : cause ≠ .portWriteFailure) :
      StepEffect s (takeFault cause w s)
  /-- A failed write (R205). -/
  | writeFailed {w : Word} (hfetch : s.fetch = some w) (ds : List Drive) (hacc : s.accepts ds.length)
      (hfail : s.answer ds.length = .failed) : StepEffect s (takeFault .portWriteFailure w (broken ds s))
  /-- Every write succeeds (R25, R27). -/
  | completed {i : Instr} (hfetch : s.fetch = some (encode i)) (hadm : Admitted i s) (ds : List Drive)
      (hacc : s.accepts ds.length) : StepEffect s (finish (resultSession i) (driven ds s))
  /-- The first `SET_FAMILY` (R170). -/
  | latched {fam : Family} (hfetch : s.fetch = some (encode (.setFamily fam))) (hadm : Admitted (.setFamily fam) s)
      (hunset : s.family = Option.none) : StepEffect s (finish .none { s with family := some fam })

/-- The outcomes of the command at `pc` are outcomes of the step. -/
theorem Effect.stepEffect {i : Instr} {s t : State} (h : Effect i s t) (hfetch : s.fetch = some (encode i)) :
    StepEffect s t := by
  cases h with
  | faulted cause hcause => exact .faulted hfetch cause hcause
  | writeFailed hadm k hk hacc hfail =>
    have hlen : ((commandDrives s.config s.family i).take k).length = k := List.length_take_of_le hk.le
    exact .writeFailed hfetch _ (hlen.symm ▸ hacc) (hlen.symm ▸ hfail)
  | completed hadm hacc => exact .completed hfetch hadm _ hacc
  | latched fam hi hadm hunset =>
    subst hi
    exact .latched hfetch hadm hunset

/-- What a step can do: the engine was running, and the next state is one `StepEffect` lists (R201). -/
theorem step_effect {s t : State} (h : step s = .next t) : Running s ∧ StepEffect s t := by
  obtain ⟨hrun, ⟨hfetch, rfl⟩ | ⟨w, _, hfetch, _, rfl⟩ | ⟨w, i, hfetch, hdec, hexec⟩⟩ := step_cases h
  · exact ⟨hrun, .waited hfetch⟩
  · exact ⟨hrun, .faulted hfetch .illegalCommand (by decide)⟩
  · obtain ⟨_, rfl⟩ := encode_of_decode hdec
    exact ⟨hrun, (exec_effect hexec).2.stepEffect hfetch⟩

/-- A step appends the events of the line changes whose writes the port bus accepted, and `F` if it faults (R207); of
the port bus it uses their answers, and one more if a write fails (R205). -/
theorem StepEffect.appends {s t : State} (h : StepEffect s t) (hrun : Running s) :
    ∃ ds tail, t.trace = s.trace ++ drivesEvents s.config ds ++ tail ∧ s.accepts ds.length ∧
      (Running t → tail = []) ∧ (¬ Running t → tail = [.fault t.fault.code]) ∧
      (t.fault.code ≠ 4#3 → t.bus = (s.spent ds.length).bus ∧ t.draws = (s.spent ds.length).draws) ∧
      (t.fault.code = 4#3 → s.answer ds.length = .failed ∧ t.bus = (s.spent (ds.length + 1)).bus) := by
  have hcode := code_ne_four_of_running hrun
  cases h with
  | waited => exact ⟨[], [], by simp [drivesEvents], nofun, fun _ => rfl, absurd hrun, by simp, (absurd · hcode)⟩
  | latched => exact ⟨[], [], by simp [drivesEvents], nofun, fun _ => rfl, absurd hrun, by simp, (absurd · hcode)⟩
  | completed _ _ ds hacc =>
    exact ⟨ds, [], by simp, hacc, fun _ => rfl, absurd hrun, fun _ => ⟨rfl, rfl⟩, (absurd · hcode)⟩
  | faulted _ cause hcause =>
    exact ⟨[], _, by simp [drivesEvents], nofun, (absurd · not_running_takeFault), fun _ => rfl, by simp,
      (absurd · (FaultCause.code_ne_four hcause))⟩
  | writeFailed _ ds hacc hfail =>
    exact ⟨ds, _, rfl, hacc, (absurd · not_running_takeFault), fun _ => rfl, absurd rfl,
      fun _ => ⟨hfail, broken_bus ds s⟩⟩

/-- Nothing takes the note of a write back (log entry 29). -/
theorem StepEffect.keeps_note {s t : State} (h : StepEffect s t) (hwritten : s.registerWritten = true) :
    t.registerWritten = true := by
  cases h with
  | waited | latched | faulted => exact hwritten
  | completed => simp [hwritten]
  | writeFailed => exact broken_registerWritten ..

/-- A step that writes, or that fails to, notes it (log entry 19). -/
theorem StepEffect.notes_writes {s t : State} (h : StepEffect s t) (hrun : Running s)
    (hwrite : writtenWords t.trace ≠ writtenWords s.trace ∨ t.fault.code = 4#3) : t.registerWritten = true := by
  have hcode := code_ne_four_of_running hrun
  cases h with
  | waited | latched => exact absurd hwrite (not_or_intro (not_not_intro rfl) hcode)
  | faulted _ cause hcause =>
    refine absurd hwrite (not_or_intro (not_not_intro ?_) (FaultCause.code_ne_four hcause))
    simp [writtenWords]
  | writeFailed => exact broken_registerWritten ..
  | completed _ _ ds =>
    have hds : ds ≠ [] := by
      rintro rfl
      exact hwrite.resolve_right hcode (by simp [drivesEvents])
    simp [List.length_pos_iff.mpr hds]

end Sys2Proof.Machine
end

section
/-! SUPPORT. The invariant `Consistent` under each thing a step does: taking a fault, driving the lines and finishing a
command. -/

namespace Sys2Proof.Safety

open Sys2Proof.Machine

section

variable {s : State} (hs : Consistent s) (hrun : Running s)
include hs hrun

/-- A running engine has no `F` event in its trace (R207). -/
theorem Consistent.no_fault_event : s.trace.filter isFault = [] := by
  simpa [s.halted_eq_false_iff.mpr hrun] using hs.oneFault

/-- Taking a fault keeps the invariant. A failed write may change LINES and the port bus, if it is noted (R205,
R207). -/
theorem Consistent.fault_taken {cmd : Word} (hfetch : s.fetch = some cmd) {cause : FaultCause} {lines : Word}
    {written : Bool} {bus : List PortAnswer} {draws : Nat} (hlines : cause ≠ .portWriteFailure → lines = s.lines)
    (hwritten : s.registerWritten = true ∨ cause = .portWriteFailure → written = true) :
    Consistent (takeFault cause cmd
      { s with lines := lines, registerWritten := written, bus := bus, draws := draws }) where
  codeKnown := cause.code_toNat_le
  writesComposed a w hw := hs.writesComposed a w (by simpa using hw)
  linesLastWritten hcode w hw := by
    have hcause : cause ≠ .portWriteFailure := mt cause.code_eq_four_iff.mpr hcode
    exact (hlines hcause).trans
      (hs.linesLastWritten (code_ne_four_of_running hrun) w (by simpa [writtenWords] using hw))
  oneFault := by
    have hhalt : (takeFault cause cmd
        { s with lines := lines, registerWritten := written, bus := bus, draws := draws }).halted = true :=
      (State.halted_eq_true_iff _).mpr cause.code_ne_zero
    simp [hhalt, hs.no_fault_event hrun, isFault]
  faultLast _ := by simp
  faultRecorded _ := ⟨rfl, hfetch⟩
  twoWireSession := hs.twoWireSession
  fourWireSession := hs.fourWireSession
  writesNoted h := by
    refine hwritten (h.imp (fun hw => hs.writesNoted (.inl ?_)) cause.code_eq_four_iff.mp)
    simpa [writtenWords] using hw
  pcIssued := hs.pcIssued

/-- Drives keep the invariant: they write composed words to the register, and LINES holds the last one (R52, R101). -/
theorem Consistent.lines_driven (ds : List Drive) : Consistent (driven ds s) where
  codeKnown := hs.codeKnown
  writesComposed a w hw := (List.mem_append.mp hw).elim (hs.writesComposed a w) write_mem_drivesEvents
  linesLastWritten hcode w hw := by
    cases hlast : (writtenWords (drivesEvents s.config ds)).getLast? with
    | some v =>
      obtain rfl : v = w := by simpa [List.getLast?_append, hlast] using hw
      exact drivenLines_eq_of_getLast? s.lines hlast
    | none =>
      have hds : ds = [] := by simpa [writtenWords_drivesEvents] using hlast
      subst hds
      exact hs.linesLastWritten hcode w (by simpa [drivesEvents] using hw)
  oneFault := by
    rw [driven_trace, List.filter_append, drivesEvents_filter_isFault, List.append_nil]
    exact hs.oneFault
  faultLast h := absurd hrun h
  faultRecorded h := absurd hrun h
  twoWireSession := hs.twoWireSession
  fourWireSession := hs.fourWireSession
  writesNoted h := by
    have hw : writtenWords s.trace ≠ [] ∨ writtenWords (drivesEvents s.config ds) ≠ [] := by
      have := h.resolve_right (code_ne_four_of_running hrun)
      rw [driven_trace, writtenWords_append] at this
      simpa [or_iff_not_imp_left] using this
    rcases hw with hw | hw
    · simp [hs.writesNoted (.inl hw)]
    · have hlen := List.length_pos_iff.mpr hw
      rw [writtenWords_drivesEvents_length] at hlen
      simp [hlen]
  pcIssued := hs.pcIssued

/-- Finishing a command keeps the invariant, if the SESSION it leaves is one of the engine that FAMILY then names. -/
theorem Consistent.finished {w : Word} (hfetch : s.fetch = some w) {after : Session} {latch : Option Family}
    (htwoWire : after = .i2cReady ∨ after = .i2cStarted → latch = some .i2c)
    (hfourWire : after = .spiSelected → latch = some .fourwire) :
    Consistent (finish after { s with family := latch }) where
  codeKnown := hs.codeKnown
  writesComposed := hs.writesComposed
  linesLastWritten := hs.linesLastWritten
  oneFault := hs.oneFault
  faultLast := hs.faultLast
  faultRecorded h := absurd hrun h
  twoWireSession := htwoWire
  fourWireSession := hfourWire
  writesNoted := hs.writesNoted
  pcIssued := (List.getElem?_eq_some_iff.mp hfetch).1

/-- Every outcome of a step keeps the invariant. -/
theorem consistent_of_stepEffect {t : State} (h : StepEffect s t) : Consistent t := by
  cases h with
  | waited => exact hs
  | faulted hfetch cause hcause => exact hs.fault_taken hrun hfetch (fun _ => rfl) (·.resolve_right hcause)
  | writeFailed hfetch ds =>
    exact (hs.lines_driven hrun ds).fault_taken hrun hfetch (absurd rfl) fun _ => Bool.or_true _
  | completed hfetch hadm ds =>
    obtain ⟨htwoWire, hfourWire⟩ := family_of_resultSession hadm.family
    exact (hs.lines_driven hrun ds).finished hrun hfetch htwoWire hfourWire
  | latched hfetch => exact hs.finished hrun hfetch nofun nofun

end

/-- A word is written in a trace if the trace has a write of it. -/
theorem mem_writtenWords {w : Word} {trace : List Event} (h : w ∈ writtenWords trace) : ∃ a, .write a w ∈ trace := by
  induction trace with
  | nil => simp [writtenWords] at h
  | cons e trace ih =>
    cases e with
    | write a v =>
      obtain rfl | h := List.mem_cons.mp h
      · exact ⟨a, List.mem_cons_self⟩
      · exact (ih h).imp fun _ => List.mem_cons_of_mem _
    | hold t => exact (ih h).imp fun _ => List.mem_cons_of_mem _
    | fault code => exact (ih h).imp fun _ => List.mem_cons_of_mem _

/-- Once a write has been made, and until one fails, LINES is a composed word (R22, R62). -/
theorem Consistent.lines_composed {s : State} (hs : Consistent s) (hcode : s.fault.code ≠ 4#3)
    (hwritten : writtenWords s.trace ≠ []) : ∃ cs clk dataOut, s.lines = compose s.config cs clk dataOut := by
  have hlast := List.getLast?_eq_some_getLast hwritten
  obtain ⟨a, ha⟩ := mem_writtenWords (List.mem_of_getLast? hlast)
  rw [hs.linesLastWritten hcode _ hlast]
  exact (hs.writesComposed a _ ha).2

/-- output_enable is 1 in every port word (R61). -/
theorem compose_getLsbD_pOe (c : Configuration) (cs clk dataOut : Bool) :
    (compose c cs clk dataOut).getLsbD c.board.pOe.val = true := by
  simp [compose_getLsbD]

end Sys2Proof.Safety
end

section
/-! SUPPORT. The host's read of the register at the boundary (spec/10_state.md R29, R33). -/

namespace Sys2Proof.Machine

theorem setBit_getLsbD (w : Word) (p : Fin 32) (b : Bool) : (setBit w p b).getLsbD p.val = b := by
  rw [setBit, BitVec.getLsbD_or, BitVec.getLsbD_and, BitVec.getLsbD_not, lineAt_getLsbD, lineAt_getLsbD]
  simp

/-- Before any write the family status bit stands at `P_FAM` (R29, R247). -/
theorem readRegister_pFam {s : State} (hfresh : s.registerWritten = false) :
    (readRegister s).1.getLsbD s.config.board.pFam.val = s.familyBit := by
  simp only [readRegister, hfresh]
  exact setBit_getLsbD _ _ _

/-- After a write the read is a draw (R29, R33, U10). -/
theorem readRegister_of_written {s : State} (hwritten : s.registerWritten = true) :
    (readRegister s).1 = Config.drawReadback s.draws := by
  simp [readRegister, hwritten]

end Sys2Proof.Machine
end

section
/-! PROOFS. The remaining statements of spec/10_state.md and spec/20_memory.md. -/

namespace Sys2Proof.Proofs

open Sys2Proof.Machine Sys2Proof.Safety

/-- Settles O9: each outcome of a step keeps the invariant. -/
theorem stepKeepsConsistent : Obligations.StepKeepsConsistent := by
  intro s t hs h
  obtain ⟨hrun, heff⟩ := step_effect h
  exact consistent_of_stepEffect hs hrun heff

/-- Settles O8: after reset the trace is empty, no session is open and no fault is recorded. -/
theorem resetIsConsistent : Obligations.ResetIsConsistent where
  codeKnown := by decide
  writesComposed _ _ h := absurd h List.not_mem_nil
  linesLastWritten _ _ h := nomatch h
  oneFault := rfl
  faultLast h := absurd rfl h
  faultRecorded h := absurd rfl h
  twoWireSession := nofun
  fourWireSession := nofun
  writesNoted h := h.elim (absurd rfl) nofun
  pcIssued := Nat.zero_le 0

/-- Settles O7, by the definition of the state after reset. -/
theorem resetClearsTheEngine : Obligations.ResetClearsTheEngine :=
  ⟨rfl, rfl, rfl, rfl, rfl⟩

/-- Settles O36: the one outcome of a step that changes FAMILY is the first `SET_FAMILY`. -/
theorem familyIsLatchedOnce : Obligations.FamilyIsLatchedOnce := by
  refine ⟨rfl, fun s t h hchange => ?_⟩
  obtain ⟨_, heff⟩ := step_effect h
  cases heff with
  | latched hfetch _ hunset => exact ⟨hunset, _, _, hfetch, decode_encode _ rfl, rfl⟩
  | waited | faulted | writeFailed | completed => exact absurd rfl hchange

/-- Settles O37: a command that completes was admitted in its SESSION; taking a fault leaves SESSION. -/
theorem sessionFollowsTheTable : Obligations.SessionFollowsTheTable := by
  intro i s t hrun h
  obtain ⟨_, heff⟩ := exec_effect h
  cases heff with
  | faulted cause => exact ⟨fun h => absurd h not_running_takeFault, fun _ => rfl⟩
  | writeFailed => exact ⟨fun h => absurd h not_running_takeFault, fun _ => rfl⟩
  | completed hadm => exact ⟨fun _ => ⟨hadm.session, rfl⟩, fun h => absurd hrun h⟩
  | latched _ hi hadm =>
    subst hi
    exact ⟨fun _ => ⟨hadm.session, rfl⟩, fun h => absurd hrun h⟩

/-- Settles O38: no outcome of a step touches these fields. -/
theorem stepNeverChangesParametersOrStream : Obligations.StepNeverChangesParametersOrStream := by
  intro s t h
  obtain ⟨_, heff⟩ := step_effect h
  cases heff <;> exact ⟨rfl, rfl, rfl⟩

/-- Settles O39: the events of a step are those of the line changes whose writes the port bus accepted. -/
theorem traceOnlyGrows : Obligations.TraceOnlyGrows := by
  intro s t h
  obtain ⟨hrun, heff⟩ := step_effect h
  obtain ⟨ds, tail, htrace, hacc, hcompleted, hfaulted, haccepted, hfailed⟩ := heff.appends hrun
  refine ⟨drivesEvents s.config ds, tail, htrace, drivesEvents_all_not_isFault _ ds, fun _ _ => write_mem_drivesEvents,
    hcompleted, hfaulted, ?_⟩
  rw [writtenWords_drivesEvents_length]
  exact ⟨hacc, haccepted, hfailed⟩

/-- Settles O41: LINES is a composed word, whose output_enable is 1. -/
theorem outputEnableStaysAsserted : Obligations.OutputEnableStaysAsserted := by
  intro s hs hcode hwritten
  obtain ⟨cs, clk, dataOut, hlines⟩ := hs.lines_composed hcode hwritten
  have henabled : s.lines.getLsbD s.config.board.pOe.val = true := hlines ▸ compose_getLsbD_pOe ..
  exact ⟨henabled, fun l => if_pos henabled⟩

/-- Settles O53: the read of a fresh register has the family status bit at `P_FAM`. -/
theorem hostReadsTheFamilyBeforeAnyWrite : Obligations.HostReadsTheFamilyBeforeAnyWrite := by
  intro s hfresh
  have hbit := readRegister_pFam hfresh
  exact ⟨hbit, by rw [familyOfRegister, hbit], rfl⟩

/-- Settles O55: every write, accepted or failed, sets the note, and nothing clears it. -/
theorem writtenRegisterIsNeverForgotten : Obligations.WrittenRegisterIsNeverForgotten := by
  refine ⟨fun s t h => ?step, fun s commands hwritten => ?boundary⟩
  case step =>
    obtain ⟨hrun, heff⟩ := step_effect h
    exact ⟨heff.keeps_note, heff.notes_writes hrun⟩
  case boundary =>
    exact ⟨hwritten, readRegister_of_written hwritten, readRegister_of_written (s := resetEngine commands s) hwritten⟩

end Sys2Proof.Proofs
end

section
/-! PROOFS. The remaining statements of spec/60_exceptions.md and spec/70_reset_and_hazards.md. -/

namespace Sys2Proof.Proofs

open Sys2Proof.Machine Sys2Proof.Safety

/-- Settles O10: behind the checks of the step there is the command alone. -/
theorem stepExecutesTheDecodedCommand : Obligations.StepExecutesTheDecodedCommand :=
  fun _ _ _ => step_of_decode

/-- Settles O11: without a word to fetch the step answers its own state. -/
theorem engineWaitsForACommand : Obligations.EngineWaitsForACommand :=
  fun _ => step_of_no_command

/-- Settles O12: the test of FAULT stands before everything else, and reset clears FAULT. -/
theorem haltedEngineTakesNoCommand : Obligations.HaltedEngineTakesNoCommand :=
  fun _ hhalt => ⟨step_of_halted hhalt, exec_of_halted hhalt, fun _ => ⟨rfl, rfl, rfl, rfl, rfl⟩⟩

/-- Settles O13: each way through the checks ends in a next state. -/
theorem everyRunningStepAnswersANextState : Obligations.EveryRunningStepAnswersANextState :=
  fun _ hrun => ⟨step_next_of_running hrun, exec_next_of_running hrun⟩

/-- Settles O33: the two outcomes of a command that fault are a fault before any write and a failed write. -/
theorem faultsArePrecise : Obligations.FaultsArePrecise := by
  intro i s t hrun h hhalt
  obtain ⟨_, heff⟩ := exec_effect h
  cases heff with
  | faulted cause hcause =>
    refine ⟨rfl, rfl, rfl, rfl, rfl, rfl, rfl, ⟨[], by simp, rfl, fun _ => rfl, ?_⟩, fun _ => ⟨rfl, rfl, rfl, rfl⟩⟩
    exact fun hcode => absurd hcode (FaultCause.code_ne_four hcause)
  | writeFailed _ k hk hacc hfail =>
    have hcode : FaultCause.portWriteFailure.code = 4#3 := rfl
    have hlen : ((commandDrives s.config s.family i).take k).length = k := List.length_take_of_le hk.le
    generalize (commandDrives s.config s.family i).take k = ds at hlen h hhalt ⊢
    subst hlen
    refine ⟨rfl, rfl, rfl, rfl, rfl, rfl, rfl,
      ⟨drivesEvents s.config ds, rfl, drivesEvents_all_not_isFault .., absurd hcode, fun _ => ?_⟩, absurd hcode⟩
    rw [writtenWords_drivesEvents_length]
    exact ⟨hacc, hfail, broken_bus .., broken_draws .., broken_registerWritten ..⟩
  | completed => exact absurd hrun hhalt
  | latched => exact absurd hrun hhalt

/-- Settles O54: the configuration is checked as a whole before the state after reset takes it. -/
theorem legalConfigurationPowersOn : Obligations.LegalConfigurationPowersOn :=
  fun _ _ => ⟨fun hlegal => dif_pos hlegal,
    fun hillegal => powerOn_refuses_of_not_legal (Bool.eq_false_iff.mp hillegal)⟩

/-- Settles O56: an end is judged by FAULT and SESSION alone, and taking a fault leaves SESSION. -/
theorem badEndsAreFaultsOrOpenSessions : Obligations.BadEndsAreFaultsOrOpenSessions := by
  refine ⟨fun s hended => ?ends, fun i s t hrun hopen h hhalt => ?fault⟩
  case ends =>
    simp [goodEnd, badEnd, faultedEnd, incompleteSession, hended, State.halted]
  case fault =>
    have hses : t.session ≠ .none := ((sessionFollowsTheTable i s t hrun h).2 hhalt).symm ▸ hopen
    have hhalted : t.halted = true := t.halted_eq_true_iff.mpr hhalt
    simp [faultedEnd, incompleteSession, goodEnd, runEnded, hhalted, hses]

end Sys2Proof.Proofs
end

section
/-! SUPPORT. The waveform that line changes draw (spec/00_scope.md R12), and what `completedWith` says of a command that
sends it. -/

namespace Sys2Proof.Machine

open Sys2Proof.Safety

/-! ## The shape of line changes -/

/-- The waveform of line changes: the line state and the hold of each one that has a hold. -/
def shapeOf (ds : List Drive) : List (BitVec 4 × HoldName) :=
  ds.filterMap fun d => d.hold.map (d.nibble, ·)

@[simp] theorem shapeOf_append (xs ys : List Drive) : shapeOf (xs ++ ys) = shapeOf xs ++ shapeOf ys :=
  List.filterMap_append

/-- A bit frame draws the pulses of its bits (R63, R64, R67). -/
@[simp] theorem shapeOf_pulses (cs : Bool) (t : HoldName) (bits : List Bool) :
    shapeOf (pulses cs t bits) = bits.flatMap (pulseShape cs t) := by
  induction bits with
  | nil => rfl
  | cons v bits ih => rw [pulses_cons, shapeOf_append, ih]; rfl

@[simp] theorem shapeOf_initDrives : shapeOf initDrives = [(0x9#4, .i2cInit), (0xF#4, .i2cInit)] := by decide

@[simp] theorem shapeOf_startDrives : shapeOf startDrives = [(0xD#4, .i2cFrame), (0x9#4, .i2cFrame)] := by decide

@[simp] theorem shapeOf_stopDrives :
    shapeOf stopDrives = [(0x9#4, .i2cFrame), (0xD#4, .i2cFrame), (0xF#4, .i2cFrame)] := by decide

@[simp] theorem shapeOf_selectDrives : shapeOf selectDrives = [(0x1#4, .spiPre), (0x9#4, .spiBit)] := by decide

@[simp] theorem shapeOf_deselectDrives (pause : HoldName) : shapeOf (deselectDrives pause) = [(0x1#4, pause)] := by
  cases pause <;> decide

@[simp] theorem shapeOf_sendBit (c : Configuration) (v : Bool) :
    shapeOf (sendBit c v) = pulseShape c.defaults.i2cBitCs .i2cBit v := rfl

/-- A byte frame draws eight bits and the acknowledge slot (R64). -/
@[simp] theorem shapeOf_sendByte (c : Configuration) (b : Byte) : shapeOf (sendByte c b) = byteShape c.defaults b := by
  rw [sendByte, shapeOf_append, shapeOf_pulses, bitsMsbFirst_eq_msbFirst]
  rfl

@[simp] theorem shapeOf_sendField {m : Nat} (width : Nat) (value : BitVec m) :
    shapeOf (sendField width value) = fieldShape true .spiBit width value.getLsbD := by
  rw [sendField, shapeOf_pulses, bitsMsbFirst_eq_msbFirst, fieldShape]

/-- A two-wire transaction draws `9 F`, `D 9`, its three byte frames and `9 D F` (R65). -/
theorem shapeOf_writeTransaction (c : Configuration) (addr val : Byte) :
    shapeOf (writeTransaction c addr val) = transactionShape c.defaults addr val := by
  simp [writeTransaction, transactionShape]

/-- A command sequence draws `1 9`, its 25-bit frame and `1` (R68, R140). -/
theorem shapeOf_commandSequence (opc : BitVec 3) (addr : BitVec 6) (data : BitVec 16) (pause : HoldName) :
    shapeOf (commandSequence opc addr data pause) = frameShape opc addr data pause := by
  rw [commandSequence_eq_frame, shapeOf_append, shapeOf_append, shapeOf_pulses, bitsMsbFirst_eq_msbFirst,
    shapeOf_selectDrives, shapeOf_deselectDrives, frameShape, fieldShape]

/-- The port word of a drive is that of its line state (R61). -/
theorem nibbleWord_nibble (c : Configuration) (d : Drive) : nibbleWord c d.nibble = compose c d.cs d.clk d.dataOut := by
  rw [nibbleWord, d.nibble_cs, d.nibble_clk, d.nibble_dataOut]

/-- Held line changes draw one point each. -/
theorem shapeOf_cons_of_held {d : Drive} {t : HoldName} (hheld : d.hold = some t) (ds : List Drive) :
    shapeOf (d :: ds) = (d.nibble, t) :: shapeOf ds := by
  simp [shapeOf, hheld]

theorem shapeOf_length {ds : List Drive} (hheld : AllHeld ds) : (shapeOf ds).length = ds.length := by
  induction ds with
  | nil => rfl
  | cons d ds ih =>
    obtain ⟨hd, hds⟩ := (allHeld_cons d ds).mp hheld
    obtain ⟨t, ht⟩ := Option.isSome_iff_exists.mp hd
    rw [shapeOf_cons_of_held ht, List.length_cons, List.length_cons, ih hds]

/-- The events of held line changes are those of the waveform they draw (R12, R101). -/
theorem drivesEvents_eq_waveform {ds : List Drive} (hheld : AllHeld ds) (c : Configuration) :
    drivesEvents c ds = waveform c (shapeOf ds) := by
  induction ds with
  | nil => rfl
  | cons d ds ih =>
    obtain ⟨hd, hds⟩ := (allHeld_cons d ds).mp hheld
    obtain ⟨t, ht⟩ := Option.isSome_iff_exists.mp hd
    rw [drivesEvents_cons, ih hds, shapeOf_cons_of_held ht, waveform, nibbleWord_nibble]
    simp [driveEvents, ht]

/-- The line state that line changes end in. -/
def lastNibble (ds : List Drive) : Option (BitVec 4) := ds.getLast?.map Drive.nibble

theorem drivenLines_eq_nibbleWord {c : Configuration} {ds : List Drive} {last : BitVec 4} (l : Word)
    (hlast : lastNibble ds = some last) : drivenLines c ds l = nibbleWord c last := by
  obtain ⟨d, hd, rfl⟩ := Option.map_eq_some_iff.mp hlast
  rw [drivenLines, hd, nibbleWord_nibble]
  rfl

theorem lastNibble_append_of_ne_nil (xs : List Drive) {ys : List Drive} (hys : ys ≠ []) :
    lastNibble (xs ++ ys) = lastNibble ys := by
  rw [lastNibble, List.getLast?_append_of_ne_nil xs hys, lastNibble]

/-- A bit frame ends in the last phase of its last bit, with the clock low (R63). -/
theorem lastNibble_pulses_concat (cs : Bool) (t : HoldName) (bits : List Bool) (v : Bool) :
    lastNibble (pulses cs t (bits ++ [v])) = some (lineNibble cs false v) := by
  rw [pulses_append, lastNibble_append_of_ne_nil _ (by simp [pulses, bitPulse])]
  rfl

/-- A field ends with bit 0 (R67). -/
theorem bitsMsbFirst_succ_eq_concat {m : Nat} (value : BitVec m) (n : Nat) :
    ∃ bits, bitsMsbFirst value (n + 1) = bits ++ [value.getLsbD 0] := by
  induction n with
  | zero => exact ⟨[], rfl⟩
  | succ n ih =>
    obtain ⟨bits, hbits⟩ := ih
    exact ⟨value.getLsbD (n + 1) :: bits, by rw [bitsMsbFirst, hbits, List.cons_append]⟩

theorem lastNibble_sendField {m : Nat} {width : Nat} (hpos : 1 ≤ width) (value : BitVec m) :
    lastNibble (sendField width value) = some (lineNibble true false (value.getLsbD 0)) := by
  obtain ⟨n, rfl⟩ := Nat.exists_eq_add_of_le' hpos
  obtain ⟨bits, hbits⟩ := bitsMsbFirst_succ_eq_concat value n
  rw [sendField, hbits, lastNibble_pulses_concat]

/-- A two-wire transaction ends with the bus idle (R115). -/
theorem lastNibble_writeTransaction (c : Configuration) (addr val : Byte) :
    lastNibble (writeTransaction c addr val) = some 0xF#4 :=
  (lastNibble_append_of_ne_nil _ (List.cons_ne_nil _ _)).trans rfl

theorem lastNibble_deselectDrives (pause : HoldName) : lastNibble (deselectDrives pause) = some 0x1#4 := by
  cases pause <;> rfl

/-- A command sequence ends deselected (R140). -/
theorem lastNibble_commandSequence (opc : BitVec 3) (addr : BitVec 6) (data : BitVec 16) (pause : HoldName) :
    lastNibble (commandSequence opc addr data pause) = some 0x1#4 :=
  (lastNibble_append_of_ne_nil _ (List.cons_ne_nil _ _)).trans (lastNibble_deselectDrives pause)

/-! ## Commands that draw a waveform -/

/-- A command that only sends held line changes, which draw a waveform and end in a line state. -/
structure Draws (c : Configuration) (latch : Option Family) (i : Instr) (shape : List (BitVec 4 × HoldName))
    (last : BitVec 4) : Prop where
  /-- Only sends its line changes. -/
  sendable : Sendable c latch i
  /-- A hold follows each of them. -/
  held : AllHeld (commandDrives c latch i)
  /-- They draw the waveform. -/
  drawn : shapeOf (commandDrives c latch i) = shape
  /-- The last one leaves the line state. -/
  ends : lastNibble (commandDrives c latch i) = some last

/-- Held line changes of which every write succeeds, and the end of their command. -/
theorem finish_driven_eq_completedWith {ds : List Drive} {last : BitVec 4} (hheld : AllHeld ds)
    (hlast : lastNibble ds = some last) (after : Session) (s : State) :
    finish after (driven ds s) = completedWith s (shapeOf ds) last after := by
  simp only [finish, driven, completedWith, shapeOf_length hheld, drivesEvents_eq_waveform hheld,
    drivenLines_eq_nibbleWord s.lines hlast, State.spent_pc]

/-- A command that draws a waveform, in its SESSION and with its writes accepted, completes with it. -/
theorem Draws.exec_eq {s : State} {i : Instr} {latch : Option Family} {shape : List (BitVec 4 × HoldName)}
    {last : BitVec 4} {n : Nat} (hi : Draws s.config latch i shape last) (hrun : Running s) (hfam : s.family = latch)
    (hses : s.session = acceptedSession i) (hlen : (commandDrives s.config latch i).length = n)
    (hacc : s.accepts n) :
    exec i s = .next (completedWith s shape last (resultSession i)) := by
  subst hfam
  rw [exec_completes hrun hi.sendable hses (hlen.symm ▸ hacc), finish_driven_eq_completedWith hi.held hi.ends,
    hi.drawn]

/-- A command that sends a sequence draws its frame. -/
theorem SendsSequence.draws {c : Configuration} {i : Instr} {opc : BitVec 3} {addr : BitVec 6} {data : BitVec 16}
    {pause : HoldName} (hi : SendsSequence c i opc addr data pause) :
    Draws c (some .fourwire) i (frameShape opc addr data pause) 0x1#4 where
  sendable := hi.sendable
  held := hi.drives ▸ allHeld_commandSequence opc addr data pause
  drawn := by rw [hi.drives, shapeOf_commandSequence]
  ends := hi.drives ▸ lastNibble_commandSequence opc addr data pause

/-- A command that sends a sequence completes with the waveform of its frame (R144 to R146). -/
theorem SendsSequence.exec_eq_completedWith {i : Instr} {s : State} {opc : BitVec 3} {addr : BitVec 6}
    {data : BitVec 16} {pause : HoldName} (hi : SendsSequence s.config i opc addr data pause) (hrun : Running s)
    (hfam : s.family = some .fourwire) (hses : s.session = .none) (hacc : s.accepts 78) :
    exec i s = .next (completedWith s (frameShape opc addr data pause) 0x1#4 .none) := by
  have hlen : (commandDrives s.config (some .fourwire) i).length = 78 := by rw [hi.drives, commandSequence_length]
  rw [hi.draws.exec_eq hrun hfam (hses.trans hi.accepted.symm) hlen hacc, hi.result]

/-! ## The range of `PROGRAM` -/

/-- A value fits a byte exactly when its upper byte is 0 (R171). -/
theorem programInRange_i2c_iff (addr : Byte) (value : BitVec 16) :
    programInRange addr value .i2c = true ↔ value.toNat < 256 := by
  have hvalue := value.isLt
  simp only [programInRange, decide_eq_true_eq, ← BitVec.toNat_inj, BitVec.extractLsb'_toNat,
    Nat.shiftRight_eq_div_pow, BitVec.toNat_ofNat]
  omega

/-- An address fits 6 bits exactly when its two upper bits are 0 (R171). -/
theorem programInRange_fourwire_iff (addr : Byte) (value : BitVec 16) :
    programInRange addr value .fourwire = true ↔ addr.toNat < 64 := by
  have haddr := addr.isLt
  simp only [programInRange, decide_eq_true_eq, ← BitVec.toNat_inj, BitVec.extractLsb'_toNat,
    Nat.shiftRight_eq_div_pow, BitVec.toNat_ofNat]
  omega

/-- `PROGRAM` in the range of its family only sends its line changes (R171). -/
theorem program_sendable (c : Configuration) {addr : Byte} {value : BitVec 16} {f : Family}
    (hrange : programInRange addr value f = true) : Sendable c (some f) (.program addr value) where
  wellFormed := rfl
  family := rfl
  body s hconf hfam := by
    simp [commandBody, runProgram, commandDrives, resultSession, hconf, hfam, hrange]

/-- The three frames of `PROGRAM` make 234 writes (R171). -/
theorem programDrives_fourwire_length (c : Configuration) (addr : Byte) (value : BitVec 16) :
    (programDrives c addr value .fourwire).length = 234 := by
  simp only [programDrives, writeEnableDrives, writeDrives, writeDisableDrives, List.length_append,
    commandSequence_length]

end Sys2Proof.Machine
end

section
/-! PROOFS. The remaining statements of spec/40_gpio_line_driver.md to spec/43_selection_glue.md: each command draws its
waveform. -/

namespace Sys2Proof.Proofs

open Sys2Proof.Machine Sys2Proof.Safety

/-! ## The line driver -/

/-- Settles O14: the one line change of `SET_LINES`, which has no hold. -/
theorem setLinesMakesOneWrite : Obligations.SetLinesMakesOneWrite := by
  intro cs clk dataOut s hrun hses hacc
  have hsend : Sendable s.config s.family (.setLines cs clk dataOut) := ⟨rfl, rfl, fun _ _ _ => rfl⟩
  rw [exec_completes hrun hsend hses hacc]
  simp [finish, driven, commandDrives, drivenLines, drivesEvents, driveEvents, resultSession, hses, State.gpioAddr]

/-! ## The two-wire commands -/

/-- Settles O15: the line changes of Init. -/
theorem i2cInitDrivesLowThenHigh : Obligations.I2cInitDrivesLowThenHigh := by
  intro s hrun hfam hses hacc
  have hdraws : Draws s.config (some .i2c) .i2cInit [(0x9#4, .i2cInit), (0xF#4, .i2cInit)] 0xF#4 :=
    ⟨⟨rfl, rfl, fun _ _ _ => rfl⟩, by simp [commandDrives, initDrives], shapeOf_initDrives, rfl⟩
  exact hdraws.exec_eq hrun hfam hses rfl hacc

/-- Settles O16: the line changes of Start. -/
theorem i2cStartLowersDataThenClock : Obligations.I2cStartLowersDataThenClock := by
  intro s hrun hfam hses hacc
  have hdraws : Draws s.config (some .i2c) .i2cStart [(0xD#4, .i2cFrame), (0x9#4, .i2cFrame)] 0x9#4 :=
    ⟨⟨rfl, rfl, fun _ _ _ => rfl⟩, by simp [commandDrives, startDrives], shapeOf_startDrives, rfl⟩
  exact hdraws.exec_eq hrun hfam hses rfl hacc

/-- Settles O17: the three phases of a bit. -/
theorem i2cSendBitPulsesTheClock : Obligations.I2cSendBitPulsesTheClock := by
  intro v s hrun hfam hses hacc
  have hdraws : Draws s.config (some .i2c) (.i2cSendBit v) (pulseShape s.config.defaults.i2cBitCs .i2cBit v)
      (lineNibble s.config.defaults.i2cBitCs false v) :=
    ⟨⟨rfl, rfl, fun _ _ _ => rfl⟩, by simp [commandDrives, sendBit], shapeOf_sendBit .., rfl⟩
  exact hdraws.exec_eq hrun hfam hses rfl hacc

/-- Settles O18: eight bits and the acknowledge slot. -/
theorem i2cSendByteSendsTheByteFrame : Obligations.I2cSendByteSendsTheByteFrame := by
  intro b s hrun hfam hses hacc
  have hdraws : Draws s.config (some .i2c) (.i2cSendByte b) (byteShape s.config.defaults b)
      (lineNibble s.config.defaults.i2cBitCs false false) :=
    ⟨⟨rfl, rfl, fun _ _ _ => rfl⟩, by simp [commandDrives, sendByte, sendBit], shapeOf_sendByte .., rfl⟩
  exact hdraws.exec_eq hrun hfam hses (sendByte_length ..) hacc

/-- Settles O19: the line changes of Stop. -/
theorem i2cStopRaisesDataWithClockHigh : Obligations.I2cStopRaisesDataWithClockHigh := by
  intro s hrun hfam hses hacc
  have hdraws : Draws s.config (some .i2c) .i2cStop
      [(0x9#4, .i2cFrame), (0xD#4, .i2cFrame), (0xF#4, .i2cFrame)] 0xF#4 :=
    ⟨⟨rfl, rfl, fun _ _ _ => rfl⟩, by simp [commandDrives, stopDrives], shapeOf_stopDrives, rfl⟩
  exact hdraws.exec_eq hrun hfam hses rfl hacc

/-- Settles O20: Init, Start, three byte frames and Stop. -/
theorem i2cWriteSendsTheTransaction : Obligations.I2cWriteSendsTheTransaction := by
  intro addr val s hrun hfam hses hacc
  have hdraws : Draws s.config (some .i2c) (.i2cWrite addr val) (transactionShape s.config.defaults addr val) 0xF#4 :=
    ⟨⟨rfl, rfl, fun _ _ _ => rfl⟩, allHeld_writeTransaction s.config addr val, shapeOf_writeTransaction ..,
      lastNibble_writeTransaction ..⟩
  exact hdraws.exec_eq hrun hfam hses (writeTransaction_length ..) hacc

/-! ## The 4-wire commands -/

/-- Settles O21: a deselect write and the assertion of chip-select. -/
theorem spiSelectDeselectsThenAsserts : Obligations.SpiSelectDeselectsThenAsserts := by
  intro s hrun hfam hses hacc
  have hdraws : Draws s.config (some .fourwire) .spiSelect [(0x1#4, .spiPre), (0x9#4, .spiBit)] 0x9#4 :=
    ⟨⟨rfl, rfl, fun _ _ _ => rfl⟩, by simp [commandDrives, selectDrives], shapeOf_selectDrives, rfl⟩
  exact hdraws.exec_eq hrun hfam hses rfl hacc

/-- Settles O22: one bit frame, which ends with bit 0. -/
theorem spiSendFieldSendsTheBits : Obligations.SpiSendFieldSendsTheBits := by
  intro width value s hrun hpos hle hfits hfam hses hacc
  have hwf : (Instr.spiSendField width value).wellFormed = true := by
    simp only [Instr.wellFormed, Bool.and_eq_true]
    exact ⟨(fieldWidthLegal_iff width).mpr ⟨hpos, hle⟩, (fieldValueLegal_iff width value).mpr hfits⟩
  have hdraws : Draws s.config (some .fourwire) (.spiSendField width value)
      (fieldShape true .spiBit width.toNat value.getLsbD) (lineNibble true false (value.getLsbD 0)) :=
    ⟨⟨hwf, rfl, fun _ _ _ => rfl⟩, by simp [commandDrives, sendField], shapeOf_sendField ..,
      lastNibble_sendField hpos value⟩
  exact hdraws.exec_eq hrun hfam hses (sendField_length ..) hacc

/-- `SPI_DESELECT` draws its one write with the pause it asks for (R143). -/
theorem spiDeselect_draws (c : Configuration) (pause : Pause) :
    Draws c (some .fourwire) (.spiDeselect pause) [(0x1#4, holdOfPause pause)] 0x1#4 :=
  ⟨⟨rfl, rfl, fun _ _ _ => rfl⟩, by simp [commandDrives, deselectDrives], shapeOf_deselectDrives ..,
    lastNibble_deselectDrives _⟩

/-- Settles O23: the same for both pauses. -/
theorem spiDeselectPausesShortOrLong : Obligations.SpiDeselectPausesShortOrLong :=
  fun s hrun hfam hses hacc =>
    ⟨(spiDeselect_draws s.config .short).exec_eq hrun hfam hses rfl hacc,
      (spiDeselect_draws s.config .long).exec_eq hrun hfam hses rfl hacc⟩

/-- Settles O24: the frame of the Write-Enable parameters. -/
theorem spiWriteEnableSendsItsFrame : Obligations.SpiWriteEnableSendsItsFrame :=
  fun s => (spiWriteEnable_sendsSequence s.config).exec_eq_completedWith

/-- Settles O25: the frame of the operands. -/
theorem spiWriteSendsItsFrame : Obligations.SpiWriteSendsItsFrame :=
  fun addr data s => (spiWrite_sendsSequence s.config addr data).exec_eq_completedWith

/-- Settles O26: the frame of the Write-Disable parameters. -/
theorem spiWriteDisableSendsItsFrame : Obligations.SpiWriteDisableSendsItsFrame :=
  fun s => (spiWriteDisable_sendsSequence s.config).exec_eq_completedWith

/-! ## The glue -/

/-- Settles O27: the command is admitted and latches FAMILY. -/
theorem setFamilyLatchesTheFamily : Obligations.SetFamilyLatchesTheFamily := by
  intro fam s hrun hfam hses
  have hadm : Admitted (.setFamily fam) s := ⟨hrun, rfl, rfl, hses⟩
  rw [exec_admitted hadm]
  simp [commandBody, latchFamily, hfam, finish, hses]

/-- Settles O28: in range, `PROGRAM` sends the transaction of `I2C_WRITE`. -/
theorem programOnTwoWireSendsTheTransaction : Obligations.ProgramOnTwoWireSendsTheTransaction := by
  intro addr value s hrun hfam hses hfits hacc
  have hrange := (programInRange_i2c_iff addr value).mpr hfits
  have hdraws : Draws s.config (some .i2c) (.program addr value)
      (transactionShape s.config.defaults addr (value.extractLsb' 0 8)) 0xF#4 :=
    ⟨program_sendable s.config hrange, allHeld_writeTransaction s.config addr _, shapeOf_writeTransaction ..,
      lastNibble_writeTransaction ..⟩
  exact hdraws.exec_eq hrun hfam hses (writeTransaction_length ..) hacc

/-- Settles O29: in range, `PROGRAM` sends the three frames. -/
theorem programOnFourWireSendsThreeFrames : Obligations.ProgramOnFourWireSendsThreeFrames := by
  intro addr value s hrun hfam hses hfits hacc
  have hrange := (programInRange_fourwire_iff addr value).mpr hfits
  have hdraws : Draws s.config (some .fourwire) (.program addr value)
      (writeEnableShape s.config.defaults ++ writeShape s.config.defaults (addr.extractLsb' 0 6) value
        ++ writeDisableShape s.config.defaults) 0x1#4 := by
    refine ⟨program_sendable s.config hrange, allHeld_programDrives s.config addr value .fourwire, ?drawn, ?ends⟩
    case drawn =>
      simp only [commandDrives, programDrives, writeEnableDrives, writeDrives, writeDisableDrives, shapeOf_append,
        shapeOf_commandSequence, writeEnableShape, writeShape, writeDisableShape]
    case ends =>
      exact (lastNibble_append_of_ne_nil _ (List.cons_ne_nil _ _)).trans (lastNibble_commandSequence ..)
  exact hdraws.exec_eq hrun hfam hses (programDrives_fourwire_length ..) hacc

/-- Settles O32: out of range, `PROGRAM` faults in its own pseudocode, before any write. -/
theorem programOutOfRangeRaisesIllegalCommand : Obligations.ProgramOutOfRangeRaisesIllegalCommand := by
  intro addr value s hrun hses hwide
  obtain ⟨f, hfam, hrange⟩ : ∃ f, s.family = some f ∧ programInRange addr value f = false := by
    rcases hwide with ⟨hfam, hwide⟩ | ⟨hfam, hwide⟩
    · exact ⟨_, hfam, Bool.eq_false_iff.mpr (mt (programInRange_i2c_iff addr value).mp hwide.not_gt)⟩
    · exact ⟨_, hfam, Bool.eq_false_iff.mpr (mt (programInRange_fourwire_iff addr value).mp hwide.not_gt)⟩
  have hbody : runProgram addr value s = takeFault .illegalCommand (encode (.program addr value)) s := by
    simp [runProgram, hfam, hrange]
  have hadm : Admitted (.program addr value) s := ⟨hrun, rfl, by simp [hfam, familyAdmits], hses⟩
  rw [exec_admitted hadm]
  exact congrArg _ hbody

/-- The three frames of `PROGRAM` are those of the three 4-wire commands (R171). -/
theorem listDrives_programCommands (c : Configuration) (latch : Option Family) (addr : Byte) (value : BitVec 16) :
    listDrives c latch [.spiWriteEnable, .spiWrite (addr.extractLsb' 0 6) value, .spiWriteDisable] =
      programDrives c addr value .fourwire := by
  simp [listDrives, commandDrives, programDrives]

/-- Settles O51: `PROGRAM` sends the line changes of its engine's commands. -/
theorem programEqualsTheEnginesCommands : Obligations.ProgramEqualsTheEnginesCommands := by
  refine ⟨?twoWire, ?fourWire⟩
  case twoWire =>
    intro addr value s hrun hfam hses hfits hacc
    exact ⟨_, programOnTwoWireSendsTheTransaction addr value s hrun hfam hses hfits hacc,
      i2cWriteSendsTheTransaction addr _ s hrun hfam hses hacc⟩
  case fourWire =>
    intro addr value s hrun hfam hses hfits hacc
    have hsend := program_sendable s.config ((programInRange_fourwire_iff addr value).mpr hfits)
    have hdrives : commandDrives s.config s.family (.program addr value) =
        programDrives s.config addr value .fourwire := by
      rw [hfam, commandDrives]
    refine exec_eq_execAll hrun (hfam ▸ hsend) hses ?sendable ?chain ?drives ?accepted
    case sendable =>
      simp only [List.forall_mem_cons, hfam]
      exact ⟨⟨rfl, rfl, fun _ _ _ => rfl⟩, ⟨rfl, rfl, fun _ _ _ => rfl⟩, ⟨rfl, rfl, fun _ _ _ => rfl⟩, by simp⟩
    case chain => exact ⟨hses, rfl, rfl, rfl⟩
    case drives => rw [hdrives, listDrives_programCommands]
    case accepted => rw [hdrives, programDrives_fourwire_length]; exact hacc

end Sys2Proof.Proofs
end
section
/-! SUPPORT. What an observer reads from the two-wire waveforms: the data at the rising clock edges, where the data line
changes (R119), and the least time of a trace (R250). -/

namespace Sys2Proof.Machine

open Sys2Proof.Safety

/-! ## Byte frames -/

/-- A byte frame is one bit frame: the acknowledge slot is driven like a ninth bit (R64, R117). -/
theorem sendByte_eq_pulses (c : Configuration) (b : Byte) :
    sendByte c b = pulses c.defaults.i2cBitCs .i2cBit (bitsMsbFirst b 8 ++ [false]) := by
  rw [pulses_append]; rfl

/-- The data line changes only while the clock is low, as seen from the drives (R119). -/
def DataStable (ds : List Drive) : Prop := dataStableWhileHigh (ds.map Drive.nibble) = true

theorem dataStable_cons_cons (d e : Drive) (ds : List Drive) :
    DataStable (d :: e :: ds) ↔
      (d.dataOut = e.dataOut ∨ d.clk = false ∧ e.clk = false) ∧ DataStable (e :: ds) := by
  simp only [DataStable, List.map_cons, dataStableWhileHigh, Drive.nibble_clk, Drive.nibble_dataOut, Bool.and_eq_true,
    Bool.or_eq_true, beq_iff_eq, Bool.not_eq_true']

/-- After a drive with the clock low, a bit frame changes the data line only while the clock is low. -/
theorem dataStable_low_pulses {low : Drive} (hlow : low.clk = false) (cs : Bool) (t : HoldName) (bits : List Bool) :
    DataStable (low :: pulses cs t bits) := by
  induction bits generalizing low with
  | nil => rfl
  | cons v bits ih =>
    have hrest : DataStable (⟨cs, false, v, some t⟩ :: pulses cs t bits) := ih rfl
    simp [pulses_cons, bitPulse, dataStable_cons_cons, hlow, hrest]

/-- So does a bit frame by itself (R119). -/
theorem dataStable_pulses (cs : Bool) (t : HoldName) (bits : List Bool) : DataStable (pulses cs t bits) := by
  cases bits with
  | nil => rfl
  | cons v bits =>
    have hrest : DataStable (⟨cs, false, v, some t⟩ :: pulses cs t bits) := dataStable_low_pulses rfl cs t bits
    simp [pulses_cons, bitPulse, dataStable_cons_cons, hrest]

/-! ## Whole transactions -/

/-- The bits of a transaction: three bytes, each with its acknowledge slot (R65). -/
def transactionBits (d : Defaults) (addr val : Byte) : List Bool :=
  bitsMsbFirst d.devSel 8 ++ [false] ++ (bitsMsbFirst addr 8 ++ [false]) ++ (bitsMsbFirst val 8 ++ [false])

/-- Between Start and Stop a transaction is one bit frame (R65). -/
theorem writeTransaction_eq_frame (c : Configuration) (addr val : Byte) :
    writeTransaction c addr val = initDrives ++ startDrives ++
      pulses c.defaults.i2cBitCs .i2cBit (transactionBits c.defaults addr val) ++ stopDrives := by
  simp only [writeTransaction, sendByte_eq_pulses, transactionBits, pulses_append, List.append_assoc]

/-- The clock rises in Init with data 1, at each bit, and in Stop with data 0 (R119). -/
theorem risingBits_writeTransaction (c : Configuration) (addr val : Byte) :
    risingBits (writeTransaction c addr val) = [true] ++ transactionBits c.defaults addr val ++ [false] := by
  have hstop (low : Drive) (hlow : low.clk = false) : risingBits (low :: stopDrives) = [false] := by
    simp [stopDrives, risingBits_cons_cons, risingBits_singleton, i2cStopData]
  rw [writeTransaction_eq_frame]
  simp only [initDrives, startDrives, List.cons_append, List.nil_append, risingBits_cons_cons,
    risingBits_low_pulses_append, hstop]
  simp

/-! ## Time -/

/-- The least time that the holds of line changes take (R250). -/
def heldTime (b : Board) (ds : List Drive) : Nat := (ds.map fun d => (d.hold.map (holdMinimum b)).getD 0).sum

theorem minDuration_drivesEvents (b : Board) (c : Configuration) (ds : List Drive) :
    minDuration b (drivesEvents c ds) = heldTime b ds := by
  induction ds with
  | nil => rfl
  | cons d ds ih =>
    rw [drivesEvents_cons, minDuration_append, ih]
    cases hd : d.hold <;> simp [driveEvents, minDuration, heldTime, hd]

@[simp] theorem heldTime_append (b : Board) (xs ys : List Drive) :
    heldTime b (xs ++ ys) = heldTime b xs + heldTime b ys := by
  simp [heldTime]

/-- A bit takes three holds (R63). -/
@[simp] theorem heldTime_pulses (b : Board) (cs : Bool) (t : HoldName) (bits : List Bool) :
    heldTime b (pulses cs t bits) = 3 * bits.length * holdMinimum b t := by
  induction bits with
  | nil => simp [pulses, heldTime]
  | cons v bits ih =>
    rw [pulses_cons, heldTime_append, ih]
    simp [bitPulse, heldTime]
    ring

/-- The least time of a two-wire transaction (R250). -/
theorem heldTime_writeTransaction (b : Board) (c : Configuration) (addr val : Byte) :
    heldTime b (writeTransaction c addr val) = 2 * b.tI2cInit + 5 * b.tI2cFrame + 81 * b.tI2cBit := by
  have hinit : heldTime b initDrives = 2 * b.tI2cInit := by simp [heldTime, initDrives, holdMinimum]; ring
  have hstart : heldTime b startDrives = 2 * b.tI2cFrame := by simp [heldTime, startDrives, holdMinimum]; ring
  have hstop : heldTime b stopDrives = 3 * b.tI2cFrame := by simp [heldTime, stopDrives, holdMinimum]; ring
  rw [writeTransaction_eq_frame, heldTime_append, heldTime_append, heldTime_append, heldTime_pulses, hinit, hstart,
    hstop]
  simp [transactionBits, holdMinimum]
  ring

/-- The least time of a 4-wire command (R250). -/
theorem heldTime_commandSequence (b : Board) (opc : BitVec 3) (addr : BitVec 6) (data : BitVec 16) (pause : HoldName) :
    heldTime b (commandSequence opc addr data pause) = b.tSpiPre + 76 * b.tSpiBit + holdMinimum b pause := by
  have hselect : heldTime b selectDrives = b.tSpiPre + b.tSpiBit := by simp [heldTime, selectDrives, holdMinimum]
  have hdeselect : heldTime b (deselectDrives pause) = holdMinimum b pause := by simp [heldTime, deselectDrives]
  rw [commandSequence_eq_frame, heldTime_append, heldTime_append, heldTime_pulses, hselect, hdeselect]
  simp [holdMinimum]
  ring

/-- The last event of a 4-wire command is its pause (R140). -/
theorem commandSequence_events_getLast? (c : Configuration) (opc : BitVec 3) (addr : BitVec 6) (data : BitVec 16)
    (pause : HoldName) :
    (drivesEvents c (commandSequence opc addr data pause)).getLast? = some (.hold pause) := by
  rw [commandSequence, drivesEvents_append]
  exact List.getLast?_append_of_ne_nil _ (List.cons_ne_nil _ _)

/-- A command that sends a sequence takes the time of its frame and ends with its pause. -/
theorem SendsSequence.duration {i : Instr} {s : State} {opc : BitVec 3} {addr : BitVec 6} {data : BitVec 16}
    {pause : HoldName} (hi : SendsSequence s.config i opc addr data pause) (hrun : Running s)
    (hfam : s.family = some .fourwire) (hses : s.session = .none) (hacc : s.accepts 78) :
    ∃ t events, exec i s = .next t ∧ t.trace = s.trace ++ events ∧ events.getLast? = some (.hold pause) ∧
      minDuration s.config.board events =
        s.config.board.tSpiPre + 76 * s.config.board.tSpiBit + holdMinimum s.config.board pause :=
  ⟨_, _, hi.exec_eq hrun hfam hses hacc, rfl, commandSequence_events_getLast? .., by
    rw [minDuration_drivesEvents, heldTime_commandSequence]⟩

/-- The pause after a Write is longer than that after the other two (R8, R150). -/
theorem tSpiShort_lt_tSpiLong (c : Configuration) : c.board.tSpiShort < c.board.tSpiLong := by
  have hlegal := c.legal
  simp only [legalParameters, Bool.and_eq_true, decide_eq_true_eq] at hlegal
  obtain ⟨_, hpauses⟩ := hlegal
  exact hpauses

end Sys2Proof.Machine
end

section
/-! PROOFS. What an observer reads (spec/41_i2c_engine.md R119, spec/70_reset_and_hazards.md R250). -/

namespace Sys2Proof.Proofs

open Sys2Proof.Machine Sys2Proof.Safety

/-- Settles O44: a byte frame is one bit frame of nine bits. -/
theorem byteSamplesAreMsbFirst : Obligations.ByteSamplesAreMsbFirst := by
  intro b s hrun hfam hses hacc
  have hsend : Sendable s.config s.family (.i2cSendByte b) := hfam ▸ ⟨rfl, rfl, fun _ _ _ => rfl⟩
  refine ⟨_, drivesEvents s.config (sendByte s.config b),
    exec_completes hrun hsend hses ((sendByte_length s.config b).symm ▸ hacc), rfl, ?samples, ?stable⟩
  case samples => rw [samples_drivesEvents, sendByte_eq_pulses, risingBits_pulses, bitsMsbFirst_eq_msbFirst]
  case stable => rw [lineStates_drivesEvents, sendByte_eq_pulses]; exact dataStable_pulses ..

/-- Settles O45: the edges of Init, of the three byte frames as one bit frame, and of Stop. -/
theorem transactionSamplesAreMsbFirst : Obligations.TransactionSamplesAreMsbFirst := by
  intro addr val s hrun hfam hses hacc
  have hsend : Sendable s.config s.family (.i2cWrite addr val) := hfam ▸ ⟨rfl, rfl, fun _ _ _ => rfl⟩
  refine ⟨_, drivesEvents s.config (writeTransaction s.config addr val),
    exec_completes hrun hsend hses ((writeTransaction_length s.config addr val).symm ▸ hacc), rfl, ?_⟩
  rw [samples_drivesEvents, risingBits_writeTransaction]
  simp only [transactionBits, bitsMsbFirst_eq_msbFirst, List.append_assoc]

/-- Settles O49: the holds of each command's line changes, added up. -/
theorem minimumDurations : Obligations.MinimumDurations := by
  refine ⟨fun addr val s hrun hfam hses hacc => ?twoWire, fun s hrun hfam hses hacc => ?fourWire⟩
  case twoWire =>
    have hsend : Sendable s.config s.family (.i2cWrite addr val) := hfam ▸ ⟨rfl, rfl, fun _ _ _ => rfl⟩
    refine ⟨_, drivesEvents s.config (writeTransaction s.config addr val),
      exec_completes hrun hsend hses ((writeTransaction_length s.config addr val).symm ▸ hacc), rfl, ?_⟩
    rw [minDuration_drivesEvents, heldTime_writeTransaction]
  case fourWire =>
    exact ⟨(spiWriteEnable_sendsSequence s.config).duration hrun hfam hses hacc,
      (spiWriteDisable_sendsSequence s.config).duration hrun hfam hses hacc,
      fun addr data => (spiWrite_sendsSequence s.config addr data).duration hrun hfam hses hacc,
      tSpiShort_lt_tSpiLong s.config⟩

end Sys2Proof.Proofs
end

section
/-! SUPPORT. The 4-wire frames that a command stream sends (spec/70_reset_and_hazards.md R245; log entry 22). -/

namespace Sys2Proof.Safety

open Sys2Proof.Machine

/-- The bits of a field tell its value. -/
theorem bitsMsbFirst_injective {m : Nat} {x y : BitVec m} (h : bitsMsbFirst x m = bitsMsbFirst y m) : x = y := by
  have hbits (n : Nat) (hn : bitsMsbFirst x n = bitsMsbFirst y n) : ∀ k < n, x.getLsbD k = y.getLsbD k := by
    induction n with
    | zero => nofun
    | succ n ih =>
      obtain ⟨hfirst, hrest⟩ := List.cons.inj hn
      intro k hk
      rcases Nat.lt_succ_iff_lt_or_eq.mp hk with hk | rfl
      · exact ih hrest k hk
      · exact hfirst
  exact BitVec.eq_of_getLsbD_eq (hbits m h)

/-- The bits of a frame are those of its three fields (R68). -/
theorem frameBits_eq (opc : BitVec 3) (addr : BitVec 6) (data : BitVec 16) :
    frameBits opc addr data = bitsMsbFirst opc 3 ++ bitsMsbFirst addr 6 ++ bitsMsbFirst data 16 := by
  rw [frameBits, ← bitsMsbFirst_append opc addr 3, ← bitsMsbFirst_append (opc ++ addr) data 9]

theorem frameBits_take (opc : BitVec 3) (addr : BitVec 6) (data : BitVec 16) :
    (frameBits opc addr data).take 3 = bitsMsbFirst opc 3 := by
  rw [frameBits_eq, List.append_assoc]
  exact List.take_left' (bitsMsbFirst_length opc 3)

/-- A frame with the opcode of Write is a Write frame, whatever its address and data (R69). -/
theorem frameKind_write (d : Defaults) (addr : BitVec 6) (data : BitVec 16) :
    frameKind d (frameBits d.spiOpcWrite addr data) = .write :=
  if_pos ⟨bitsMsbFirst_length _ 25, frameBits_take ..⟩

/-- The Write-Enable frame is one, if its opcode is not that of Write (R69). -/
theorem frameKind_writeEnable {d : Defaults} (hopc : d.spiOpcWen ≠ d.spiOpcWrite) :
    frameKind d (frameBits d.spiOpcWen d.spiAddrWen d.spiDataWen) = .writeEnable := by
  rw [frameKind, if_neg, if_pos rfl]
  rintro ⟨_, hbits⟩
  rw [frameBits_take] at hbits
  exact hopc (bitsMsbFirst_injective hbits)

theorem framesSent_spiWriteEnable (d : Defaults) (bits : List Bool) (rest : List Instr) :
    framesSent d bits (.spiWriteEnable :: rest) = .writeEnable :: framesSent d bits rest := rfl

theorem framesSent_spiWrite (d : Defaults) (bits : List Bool) (addr : BitVec 6) (data : BitVec 16) (rest : List Instr) :
    framesSent d bits (.spiWrite addr data :: rest) = .write :: framesSent d bits rest := rfl

/-- The primitive commands of a frame send that frame, whatever bits were clocked before them (R76). -/
theorem framesSent_frameCommands (d : Defaults) (bits : List Bool) (opc : BitVec 3) (addr : BitVec 6)
    (data : BitVec 16) (pause : Pause) (rest : List Instr) :
    framesSent d bits (frameCommands opc addr data pause ++ rest) =
      frameKind d (frameBits opc addr data) :: framesSent d [] rest := by
  have hclocked : framesSent d bits (frameCommands opc addr data pause ++ rest) =
      frameKind d (bitsMsbFirst (opc.setWidth 16) 3 ++ bitsMsbFirst (addr.setWidth 16) 6 ++ bitsMsbFirst data 16) ::
        framesSent d [] rest := rfl
  rw [hclocked, bitsMsbFirst_setWidth opc (by decide), bitsMsbFirst_setWidth addr (by decide), frameBits_eq]

end Sys2Proof.Safety
end

section
/-! PROOFS. The obligations of the host's command stream (spec/70_reset_and_hazards.md). -/

namespace Sys2Proof.Proofs

open Sys2Proof.Machine Sys2Proof.Safety

/-- Settles O57: a frame built from primitives counts by its bits, a composite command by its name. -/
theorem handBuiltFramesCountAsTheirCommands : Obligations.HandBuiltFramesCountAsTheirCommands := by
  intro d a x p q hopc written enabling
  have hwritten (bits : List Bool) : framesSent d bits written = [.write] := by
    have h := framesSent_frameCommands d bits d.spiOpcWrite a x p []
    rw [List.append_nil, frameKind_write] at h
    exact h
  have henabling (rest : List Instr) : framesSent d [] (enabling ++ rest) = .writeEnable :: framesSent d [] rest := by
    have h := framesSent_frameCommands d [] d.spiOpcWen d.spiAddrWen d.spiDataWen q rest
    rw [frameKind_writeEnable hopc] at h
    exact h
  refine ⟨?_, rfl, ?_, ?_, ?_⟩
  · rw [writeEnabledFirst, hwritten]; rfl
  · rw [writeEnabledFirst, framesSent_spiWriteEnable, hwritten]; rfl
  · rw [writeEnabledFirst, henabling, hwritten]; rfl
  · rw [writeEnabledFirst, henabling, framesSent_spiWrite]; rfl

end Sys2Proof.Proofs
end
